-- ==== Sys2Proof/Word.lean ====
section
/-! DEFINITION. The machine's units of data: byte, word and long word (00_scope.md R7, R9). -/

namespace Sys2Proof

/-- 8 bits, operand size B. -/
abbrev Byte := BitVec 8

/-- 16 bits, operand size W; also one instruction word (`WORD` of 00_scope.md R7). -/
abbrev Word := BitVec 16

/-- 32 bits, operand size L: `XLEN` and `ALEN` of 00_scope.md R7. -/
abbrev Long := BitVec 32

end Sys2Proof
end

