-- ==== Sys2Proof/Syntax.lean ====
section
/-! DEFINITION. The syntax of an instruction: operand sizes, registers, conditions, effective-address
descriptors (20_memory.md R90), one constructor of `Instr` per row of spec/opcode_table.json, the
row's name (`Op`) and the row's operand fields (`Args`, one constructor per layout of 30_encoding.md R132). -/

namespace Sys2Proof

/-- Operand sizes B, W and L (00_scope.md R9). -/
inductive Size where
  | b | w | l
  deriving DecidableEq, Repr

/-- A register number, 0 to 7. -/
abbrev RegNo := BitVec 3

/-- A general register: the data bank or the address bank, and a number. -/
inductive GReg where
  | d (n : RegNo)
  | a (n : RegNo)
  deriving DecidableEq, Repr

/-- The sixteen conditions (10_state.md R54), in the order of their codes. -/
inductive Cond where
  | t | f | hi | ls | cc | cs | ne | eq | vc | vs | pl | mi | ge | lt | gt | le
  deriving DecidableEq, Repr

/-- The index scale factors a brief extension word may ask for (20_memory.md R97). -/
inductive Scale where
  | one | two | four
  deriving DecidableEq, Repr

/-- What a legal brief extension word says: the index register, its scale and the signed 8-bit
displacement (30_encoding.md R136). -/
structure Brief where
  xreg : GReg
  scale : Scale
  d8 : Byte
  deriving DecidableEq, Repr

/-- Effective-address descriptors (20_memory.md R90), with the base of a PC-relative mode left to the
instruction's address (R100). An immediate carries its size: `immB`, `immW`, `immL` (R102). -/
inductive Ea where
  | dn (n : RegNo)
  | an (n : RegNo)
  | ind (n : RegNo)
  | postInc (n : RegNo)
  | preDec (n : RegNo)
  | disp (n : RegNo) (d16 : Word)
  | index (n : RegNo) (x : Brief)
  | absW (a16 : Word)
  | absL (a32 : Long)
  | pcDisp (d16 : Word)
  | pcIndex (x : Brief)
  | immB (v : Byte)
  | immW (v : Word)
  | immL (v : Long)
  deriving DecidableEq, Repr

/-- The instructions, one constructor per row of spec/opcode_table.json, in the table's order. Quick
fields, shift counts and the trap vector are kept as the field holds them; their meaning (0 means 8,
0 means -1) is in Machine/Operands.lean. -/
inductive Instr where
  /-- `MOVE.B`, source/destination combinations restricted by rule R200; 0x1000, R201. -/
  | moveB (src : Ea) (dst : Ea)
  /-- `MOVE.W`, source/destination combinations restricted by rule R200; 0x3000, R201. -/
  | moveW (src : Ea) (dst : Ea)
  /-- `MOVE.L`, source/destination combinations restricted by rule R200; 0x2000, R201. -/
  | moveL (src : Ea) (dst : Ea)
  /-- `MOVEA.W`; 0x3040, R202. -/
  | moveaW (src : Ea) (rx : RegNo)
  /-- `MOVEA.L`; 0x2040, R202. -/
  | moveaL (src : Ea) (rx : RegNo)
  /-- `MOVEQ.L`; 0x7000, R203. -/
  | moveq (d8 : Byte) (dx : RegNo)
  /-- `MOV3Q.L`; 0xA140, R204. -/
  | mov3q (q : BitVec 3) (dst : Ea)
  /-- `MVS.B`; 0x7100, R205. -/
  | mvsB (src : Ea) (rx : RegNo)
  /-- `MVS.W`; 0x7140, R205. -/
  | mvsW (src : Ea) (rx : RegNo)
  /-- `MVZ.B`; 0x7180, R206. -/
  | mvzB (src : Ea) (rx : RegNo)
  /-- `MVZ.W`; 0x71C0, R206. -/
  | mvzW (src : Ea) (rx : RegNo)
  /-- `MOVEM.L`, registers to memory; 0x48C0, R207. -/
  | movemToMem (mask : Word) (dst : Ea)
  /-- `MOVEM.L`, memory to registers; 0x4CC0, R208. -/
  | movemToRegs (src : Ea) (mask : Word)
  /-- `LEA.L`; 0x41C0, R209. -/
  | lea (src : Ea) (rx : RegNo)
  /-- `PEA.L`; 0x4840, R210. -/
  | pea (ea : Ea)
  /-- `LINK.W`; 0x4E50, R211. -/
  | link (ay : RegNo) (d16 : Word)
  /-- `UNLK`; 0x4E58, R212. -/
  | unlk (r : RegNo)
  /-- `CLR.B`; 0x4200, R213. -/
  | clrB (ea : Ea)
  /-- `CLR.W`; 0x4240, R213. -/
  | clrW (ea : Ea)
  /-- `CLR.L`; 0x4280, R213. -/
  | clrL (ea : Ea)
  /-- `SWAP.W`; 0x4840, R214. -/
  | swap (r : RegNo)
  /-- `ADD.L`, <ea>y,Dx; 0xD080, R250. -/
  | addEaDn (src : Ea) (rx : RegNo)
  /-- `ADD.L`, Dy,<ea>x; 0xD180, R251. -/
  | addDnEa (ry : RegNo) (dst : Ea)
  /-- `ADDA.L`; 0xD1C0, R252. -/
  | adda (src : Ea) (rx : RegNo)
  /-- `ADDI.L`; 0x0680, R253. -/
  | addi (imm : Long) (dx : RegNo)
  /-- `ADDQ.L`; 0x5080, R254. -/
  | addq (q : BitVec 3) (dst : Ea)
  /-- `ADDX.L`; 0xD180, R255. -/
  | addx (dy : RegNo) (dx : RegNo)
  /-- `SUB.L`, <ea>y,Dx; 0x9080, R256. -/
  | subEaDn (src : Ea) (rx : RegNo)
  /-- `SUB.L`, Dy,<ea>x; 0x9180, R257. -/
  | subDnEa (ry : RegNo) (dst : Ea)
  /-- `SUBA.L`; 0x91C0, R258. -/
  | suba (src : Ea) (rx : RegNo)
  /-- `SUBI.L`; 0x0480, R259. -/
  | subi (imm : Long) (dx : RegNo)
  /-- `SUBQ.L`; 0x5180, R260. -/
  | subq (q : BitVec 3) (dst : Ea)
  /-- `SUBX.L`; 0x9180, R261. -/
  | subx (dy : RegNo) (dx : RegNo)
  /-- `CMP.B`; 0xB000, R262. -/
  | cmpB (src : Ea) (rx : RegNo)
  /-- `CMP.W`; 0xB040, R262. -/
  | cmpW (src : Ea) (rx : RegNo)
  /-- `CMP.L`; 0xB080, R262. -/
  | cmpL (src : Ea) (rx : RegNo)
  /-- `CMPA.W`; 0xB0C0, R263. -/
  | cmpaW (src : Ea) (rx : RegNo)
  /-- `CMPA.L`; 0xB1C0, R263. -/
  | cmpaL (src : Ea) (rx : RegNo)
  /-- `CMPI.B`; 0x0C00, R264. -/
  | cmpiB (imm : Byte) (dx : RegNo)
  /-- `CMPI.W`; 0x0C40, R264. -/
  | cmpiW (imm : Word) (dx : RegNo)
  /-- `CMPI.L`; 0x0C80, R264. -/
  | cmpiL (imm : Long) (dx : RegNo)
  /-- `NEG.L`; 0x4480, R265. -/
  | neg (r : RegNo)
  /-- `NEGX.L`; 0x4080, R266. -/
  | negx (r : RegNo)
  /-- `EXT.W`; 0x4880, R267. -/
  | extW (r : RegNo)
  /-- `EXT.L`; 0x48C0, R268. -/
  | extL (r : RegNo)
  /-- `EXTB.L`; 0x49C0, R269. -/
  | extbL (r : RegNo)
  /-- `TST.B`; 0x4A00, R270. -/
  | tstB (ea : Ea)
  /-- `TST.W`; 0x4A40, R270. -/
  | tstW (ea : Ea)
  /-- `TST.L`; 0x4A80, R270. -/
  | tstL (ea : Ea)
  /-- `SATS.L`; 0x4C80, R271. -/
  | sats (r : RegNo)
  /-- `MULU.W`; 0xC0C0, R302. -/
  | muluW (src : Ea) (rx : RegNo)
  /-- `MULS.W`; 0xC1C0, R303. -/
  | mulsW (src : Ea) (rx : RegNo)
  /-- `MULU.L`; 0x4C00, R304. -/
  | muluL (src : Ea) (dx : RegNo)
  /-- `MULS.L`; 0x4C00, R305. -/
  | mulsL (src : Ea) (dx : RegNo)
  /-- `DIVU.W`; 0x80C0, R306. -/
  | divuW (src : Ea) (rx : RegNo)
  /-- `DIVS.W`; 0x81C0, R307. -/
  | divsW (src : Ea) (rx : RegNo)
  /-- `DIVU.L`, Dw(2:0) == Dx(14:12); 0x4C40, R308. -/
  | divuL (src : Ea) (dx : RegNo)
  /-- `DIVS.L`, Dw(2:0) == Dx(14:12); 0x4C40, R309. -/
  | divsL (src : Ea) (dx : RegNo)
  /-- `REMU.L`, Dw(2:0) != Dx(14:12); 0x4C40, R310. -/
  | remuL (src : Ea) (dw : RegNo) (dx : RegNo)
  /-- `REMS.L`, Dw(2:0) != Dx(14:12); 0x4C40, R311. -/
  | remsL (src : Ea) (dw : RegNo) (dx : RegNo)
  /-- `AND.L`, <ea>y,Dx; 0xC080, R320. -/
  | andEaDn (src : Ea) (rx : RegNo)
  /-- `AND.L`, Dy,<ea>x; 0xC180, R321. -/
  | andDnEa (ry : RegNo) (dst : Ea)
  /-- `ANDI.L`; 0x0280, R322. -/
  | andi (imm : Long) (dx : RegNo)
  /-- `OR.L`, <ea>y,Dx; 0x8080, R323. -/
  | orEaDn (src : Ea) (rx : RegNo)
  /-- `OR.L`, Dy,<ea>x; 0x8180, R324. -/
  | orDnEa (ry : RegNo) (dst : Ea)
  /-- `ORI.L`; 0x0080, R325. -/
  | ori (imm : Long) (dx : RegNo)
  /-- `EOR.L`, Dy,<ea>x; 0xB180, R326. -/
  | eor (ry : RegNo) (dst : Ea)
  /-- `EORI.L`; 0x0A80, R327. -/
  | eori (imm : Long) (dx : RegNo)
  /-- `NOT.L`; 0x4680, R328. -/
  | notL (r : RegNo)
  /-- `ASL.L`, immediate count, 0 means 8; 0xE180, R330. -/
  | aslImm (count : BitVec 3) (dx : RegNo)
  /-- `ASL.L`, count in Dy, modulo 64; 0xE1A0, R330. -/
  | aslReg (dy : RegNo) (dx : RegNo)
  /-- `ASR.L`, immediate count, 0 means 8; 0xE080, R331. -/
  | asrImm (count : BitVec 3) (dx : RegNo)
  /-- `ASR.L`, count in Dy, modulo 64; 0xE0A0, R331. -/
  | asrReg (dy : RegNo) (dx : RegNo)
  /-- `LSL.L`, immediate count, 0 means 8; 0xE188, R332. -/
  | lslImm (count : BitVec 3) (dx : RegNo)
  /-- `LSL.L`, count in Dy, modulo 64; 0xE1A8, R332. -/
  | lslReg (dy : RegNo) (dx : RegNo)
  /-- `LSR.L`, immediate count, 0 means 8; 0xE088, R333. -/
  | lsrImm (count : BitVec 3) (dx : RegNo)
  /-- `LSR.L`, count in Dy, modulo 64; 0xE0A8, R333. -/
  | lsrReg (dy : RegNo) (dx : RegNo)
  /-- `BTST.B/L`, bit number in Dn; .L when ea is Dn, .B otherwise; 0x0100, R335. -/
  | btstReg (ry : RegNo) (dst : Ea)
  /-- `BTST.B/L`, bit number immediate; .L when ea is Dn, .B otherwise; 0x0800, R335. -/
  | btstImm (n : Byte) (dst : Ea)
  /-- `BCHG.B/L`, bit number in Dn; .L when ea is Dn, .B otherwise; 0x0140, R336. -/
  | bchgReg (ry : RegNo) (dst : Ea)
  /-- `BCHG.B/L`, bit number immediate; .L when ea is Dn, .B otherwise; 0x0840, R336. -/
  | bchgImm (n : Byte) (dst : Ea)
  /-- `BCLR.B/L`, bit number in Dn; .L when ea is Dn, .B otherwise; 0x0180, R337. -/
  | bclrReg (ry : RegNo) (dst : Ea)
  /-- `BCLR.B/L`, bit number immediate; .L when ea is Dn, .B otherwise; 0x0880, R337. -/
  | bclrImm (n : Byte) (dst : Ea)
  /-- `BSET.B/L`, bit number in Dn; .L when ea is Dn, .B otherwise; 0x01C0, R338. -/
  | bsetReg (ry : RegNo) (dst : Ea)
  /-- `BSET.B/L`, bit number immediate; .L when ea is Dn, .B otherwise; 0x08C0, R338. -/
  | bsetImm (n : Byte) (dst : Ea)
  /-- `BITREV.L`; 0x00C0, R339. -/
  | bitrev (r : RegNo)
  /-- `BYTEREV.L`; 0x02C0, R340. -/
  | byterev (r : RegNo)
  /-- `FF1.L`; 0x04C0, R341. -/
  | ff1 (r : RegNo)
  /-- `TAS.B`; 0x4AC0, R342. -/
  | tas (ea : Ea)
  /-- `Bcc.B`, cond in 2..15; disp8 not 0x00, 0xFF; 0x6000, R361. -/
  | bccB (cond : Cond) (d8 : Byte)
  /-- `Bcc.W`; 0x6000, R361. -/
  | bccW (cond : Cond) (d16 : Word)
  /-- `Bcc.L`; 0x60FF, R361. -/
  | bccL (cond : Cond) (d32 : Long)
  /-- `BRA.B`, disp8 not 0x00, 0xFF; 0x6000, R362. -/
  | braB (d8 : Byte)
  /-- `BRA.W`; 0x6000, R362. -/
  | braW (d16 : Word)
  /-- `BRA.L`; 0x60FF, R362. -/
  | braL (d32 : Long)
  /-- `BSR.B`, disp8 not 0x00, 0xFF; 0x6100, R363. -/
  | bsrB (d8 : Byte)
  /-- `BSR.W`; 0x6100, R363. -/
  | bsrW (d16 : Word)
  /-- `BSR.L`; 0x61FF, R363. -/
  | bsrL (d32 : Long)
  /-- `JMP`; 0x4EC0, R364. -/
  | jmp (ea : Ea)
  /-- `JSR`; 0x4E80, R365. -/
  | jsr (ea : Ea)
  /-- `RTS`; 0x4E75, R366. -/
  | rts
  /-- `Scc.B`; 0x50C0, R367. -/
  | scc (cond : Cond) (dx : RegNo)
  /-- `TPF`; 0x51FC, R368. -/
  | tpf
  /-- `TPF.W`; 0x51FA, R368. -/
  | tpfW (imm : Word)
  /-- `TPF.L`; 0x51FB, R368. -/
  | tpfL (imm : Long)
  /-- `NOP`; 0x4E71, R369. -/
  | nop
  /-- `TRAP`; 0x4E40, R370. -/
  | trap (v : BitVec 4)
  /-- `ILLEGAL`; 0x4AFC, R371. -/
  | illegal
  /-- `MOVE from SR.W`; 0x40C0, R391. -/
  | moveFromSr (r : RegNo)
  /-- `MOVE to SR.W`; 0x46C0, R392. -/
  | moveToSr (ea : Ea)
  /-- `MOVE from CCR.W`; 0x42C0, R393. -/
  | moveFromCcr (r : RegNo)
  /-- `MOVE to CCR.B`; 0x44C0, R394. -/
  | moveToCcr (ea : Ea)
  /-- `MOVE to USP.L`; 0x4E60, R395. -/
  | moveToUsp (r : RegNo)
  /-- `MOVE from USP.L`; 0x4E68, R396. -/
  | moveFromUsp (r : RegNo)
  /-- `MOVEC.L`; 0x4E7B, R397. -/
  | movec (ry : GReg) (code : BitVec 12)
  /-- `RTE`; 0x4E73, R398. -/
  | rte
  /-- `STOP`; 0x4E72, R399. -/
  | stop (imm : Word)
  /-- `HALT`, privileged unless parameter USER_HALT; 0x4AC8, R400. -/
  | halt
  /-- `PULSE`; 0x4ACC, R401. -/
  | pulse
  /-- `STRLDSR.W`, recognized, not simulated; 0x40E7, R402. -/
  | strldsr (second : Word) (imm : Word)
  /-- `CPUSHL`, cache dc; recognized, not simulated; 0xF468, R403. -/
  | cpushlDc (r : RegNo)
  /-- `CPUSHL`, cache ic; recognized, not simulated; 0xF4A8, R403. -/
  | cpushlIc (r : RegNo)
  /-- `CPUSHL`, cache bc; recognized, not simulated; 0xF4E8, R403. -/
  | cpushlBc (r : RegNo)
  /-- `INTOUCH`, recognized, not simulated; 0xF428, R404. -/
  | intouch (r : RegNo)
  /-- `WDDATA.B`, recognized, not simulated; 0xFB00, R405. -/
  | wddataB (ea : Ea)
  /-- `WDDATA.W`, recognized, not simulated; 0xFB40, R405. -/
  | wddataW (ea : Ea)
  /-- `WDDATA.L`, recognized, not simulated; 0xFB80, R405. -/
  | wddataL (ea : Ea)
  /-- `WDEBUG.L`, recognized, not simulated; 0xFBC0, R406. -/
  | wdebug (second : Word) (ea : Ea)
  deriving DecidableEq, Repr

/-- The definitions of the registry by name, one per row of spec/opcode_table.json (30_encoding.md R139). -/
inductive Op where
  | moveB | moveW | moveL | moveaW | moveaL | moveq | mov3q | mvsB | mvsW | mvzB | mvzW
  | movemToMem | movemToRegs | lea | pea | link | unlk | clrB | clrW | clrL | swap | addEaDn
  | addDnEa | adda | addi | addq | addx | subEaDn | subDnEa | suba | subi | subq | subx | cmpB
  | cmpW | cmpL | cmpaW | cmpaL | cmpiB | cmpiW | cmpiL | neg | negx | extW | extL | extbL | tstB
  | tstW | tstL | sats | muluW | mulsW | muluL | mulsL | divuW | divsW | divuL | divsL | remuL
  | remsL | andEaDn | andDnEa | andi | orEaDn | orDnEa | ori | eor | eori | notL | aslImm | aslReg
  | asrImm | asrReg | lslImm | lslReg | lsrImm | lsrReg | btstReg | btstImm | bchgReg | bchgImm
  | bclrReg | bclrImm | bsetReg | bsetImm | bitrev | byterev | ff1 | tas | bccB | bccW | bccL
  | braB | braW | braL | bsrB | bsrW | bsrL | jmp | jsr | rts | scc | tpf | tpfW | tpfL | nop
  | trap | illegal | moveFromSr | moveToSr | moveFromCcr | moveToCcr | moveToUsp | moveFromUsp
  | movec | rte | stop | halt | pulse | strldsr | cpushlDc | cpushlIc | cpushlBc | intouch
  | wddataB | wddataW | wddataL | wdebug
  deriving DecidableEq, Repr

/-- The operand fields of an instruction, one constructor per layout of opcode word and extension words
(30_encoding.md R132, R138). -/
inductive Args where
  /-- F-MOVE: source and destination EA. -/
  | moveEa (src : Ea) (dst : Ea)
  /-- F-REG-OPMODE-EA, source EA and register 11:9. -/
  | eaReg (src : Ea) (rx : RegNo)
  /-- F-REG-OPMODE-EA, register 11:9 and destination EA. -/
  | regEa (ry : RegNo) (dst : Ea)
  /-- F-QUICK8. -/
  | quick8 (d8 : Byte) (dx : RegNo)
  /-- F-EA-Q3: quick field 11:9 and EA. -/
  | quickEa (q : BitVec 3) (dst : Ea)
  /-- F-SHIFT with an immediate count 11:9. -/
  | shiftImm (count : BitVec 3) (dx : RegNo)
  /-- MOVEM: register mask word, then the destination EA. -/
  | maskEa (mask : Word) (dst : Ea)
  /-- MOVEM: register mask word, then the source EA. -/
  | eaMask (src : Ea) (mask : Word)
  /-- F-EA. -/
  | ea (ea : Ea)
  /-- F-REG and F-CACHE: register 2:0. -/
  | reg (r : RegNo)
  /-- F-REG followed by a displacement word. -/
  | regDisp (ay : RegNo) (d16 : Word)
  /-- F-IMM-REG, a byte in one word. -/
  | immBReg (imm : Byte) (dx : RegNo)
  /-- F-IMM-REG, one word. -/
  | immWReg (imm : Word) (dx : RegNo)
  /-- F-IMM-REG, two words. -/
  | immReg (imm : Long) (dx : RegNo)
  /-- F-REG-REG: Dy 2:0 and Dx 11:9. -/
  | regReg (dy : RegNo) (dx : RegNo)
  /-- F-SHIFT with the count register 11:9 and Dx 2:0. -/
  | shiftReg (dy : RegNo) (dx : RegNo)
  /-- MUL.L: EA and the extension word of R300. -/
  | mul (src : Ea) (dx : RegNo)
  /-- DIV.L: EA and the extension word of R301 with Dw = Dx. -/
  | div (src : Ea) (dx : RegNo)
  /-- REM.L: EA and the extension word of R301 with Dw and Dx. -/
  | rem (src : Ea) (dw : RegNo) (dx : RegNo)
  /-- static bit instructions: bit number word, then the EA. -/
  | bitEa (n : Byte) (dst : Ea)
  /-- F-BRANCH, condition and 8-bit displacement. -/
  | condDisp8 (cond : Cond) (d8 : Byte)
  /-- F-BRANCH, condition and a displacement word. -/
  | condDisp16 (cond : Cond) (d16 : Word)
  /-- F-BRANCH, condition and a displacement long word. -/
  | condDisp32 (cond : Cond) (d32 : Long)
  /-- F-BRANCH, 8-bit displacement. -/
  | disp8 (d8 : Byte)
  /-- F-BRANCH, a displacement word. -/
  | disp16 (d16 : Word)
  /-- F-BRANCH, a displacement long word. -/
  | disp32 (d32 : Long)
  /-- F-SCC. -/
  | condReg (cond : Cond) (dx : RegNo)
  /-- F-FIXED. -/
  | fixed
  /-- F-FIXED or F-FIXED+EXT, one further word. -/
  | word (imm : Word)
  /-- F-FIXED, two further words. -/
  | long (imm : Long)
  /-- F-FIXED+EXT, two further words. -/
  | wordWord (second : Word) (imm : Word)
  /-- F-EA+EXT, one further word and the EA. -/
  | wordEa (second : Word) (ea : Ea)
  /-- F-VECTOR. -/
  | vector (v : BitVec 4)
  /-- MOVEC: the general register and the control register code. -/
  | ctrl (ry : GReg) (code : BitVec 12)
  deriving DecidableEq, Repr

/-- The layouts themselves: which constructor of `Args` a row's words are read into. -/
inductive Form where
  | moveEa | eaReg | regEa | quick8 | quickEa | shiftImm | maskEa | eaMask | ea | reg | regDisp
  | immBReg | immWReg | immReg | regReg | shiftReg | mul | div | rem | bitEa | condDisp8
  | condDisp16 | condDisp32 | disp8 | disp16 | disp32 | condReg | fixed | word | long | wordWord
  | wordEa | vector | ctrl
  deriving DecidableEq, Repr

end Sys2Proof
end

