-- ==== Sys2Proof/Machine/Bits.lean ====
section
/-! DEFINITION. Fields, truncation, sign extension and byte order (00_scope.md R8, R9; 20_memory.md R81). -/

namespace Sys2Proof

/-- `sz` in bytes: 1, 2 or 4 (R9). -/
def Size.bytes : Size → Nat
  | .b => 1
  | .w => 2
  | .l => 4

/-- `bits(sz)` (R9). -/
def Size.bits (sz : Size) : Nat := 8 * sz.bytes

/-- `sext_8(v)`: bits 7:0 sign-extended to 32 bits (R9). -/
def sext8 (v : Long) : Long := (v.setWidth 8).signExtend 32

/-- `sext_16(v)`: bits 15:0 sign-extended to 32 bits (R9). -/
def sext16 (v : Long) : Long := (v.setWidth 16).signExtend 32

/-- `zext_8(v)`: bits 7:0 zero-extended to 32 bits (R9). -/
def zext8 (v : Long) : Long := (v.setWidth 8).setWidth 32

/-- `zext_16(v)`: bits 15:0 zero-extended to 32 bits (R9). -/
def zext16 (v : Long) : Long := (v.setWidth 16).setWidth 32

/-- `trunc_sz(v)`, held in 32 bits (R9). -/
def Size.trunc : Size → Long → Long
  | .b, v => zext8 v
  | .w, v => zext16 v
  | .l, v => v

/-- `msb_sz(v)` (R9). -/
def Size.msb (sz : Size) (v : Long) : Bool := v.getLsbD (sz.bits - 1)

/-- The low `bits(sz)` bits of `old` replaced by those of `v`, the rest kept (10_state.md R33). -/
def Size.insert : Size → Long → Long → Long
  | .b, old, v => old.extractLsb' 8 24 ++ v.extractLsb' 0 8
  | .w, old, v => old.extractLsb' 16 16 ++ v.extractLsb' 0 16
  | .l, _, v => v

/-- A 3-bit field of an instruction word (30_encoding.md R131). -/
def Word.reg (w : Word) (shift : Nat) : RegNo := w.extractLsb' shift 3

/-- A register number as a word field at `shift`. -/
def regAt (r : RegNo) (shift : Nat) : Word := r.setWidth 16 <<< shift

/-- The byte at place `k` (0 first) of the big-endian bytes of `v` at size `sz`: the most significant
byte first (20_memory.md R81, R82). -/
def Size.byteAt (sz : Size) (v : Long) (k : Nat) : Byte := v.extractLsb' (8 * (sz.bytes - 1 - k)) 8

/-- The value of big-endian bytes, held in 32 bits (20_memory.md R81). -/
def joinBytes (bs : List Byte) : Long := bs.foldl (fun v b => v <<< 8 ||| b.setWidth 32) 0

/-- Two bytes as an instruction word, the first most significant (20_memory.md R81). -/
def wordOfBytes (hi lo : Byte) : Word := hi ++ lo

/-- The bytes of instruction words in memory order (20_memory.md R81). -/
def bytesOfWords : List Word → List Byte
  | [] => []
  | w :: ws => w.extractLsb' 8 8 :: w.extractLsb' 0 8 :: bytesOfWords ws

/-- Bytes in memory order as instruction words; an odd last byte is dropped. -/
def wordsOfBytes : List Byte → List Word
  | hi :: lo :: bs => wordOfBytes hi lo :: wordsOfBytes bs
  | _ => []

/-- The 4-bit code of a condition (10_state.md R54). -/
def Cond.code : Cond → BitVec 4
  | .t => 0
  | .f => 1
  | .hi => 2
  | .ls => 3
  | .cc => 4
  | .cs => 5
  | .ne => 6
  | .eq => 7
  | .vc => 8
  | .vs => 9
  | .pl => 10
  | .mi => 11
  | .ge => 12
  | .lt => 13
  | .gt => 14
  | .le => 15

/-- The condition of a 4-bit code (10_state.md R54). -/
def Cond.ofCode (c : BitVec 4) : Cond :=
  match c.toNat with
  | 0 => .t
  | 1 => .f
  | 2 => .hi
  | 3 => .ls
  | 4 => .cc
  | 5 => .cs
  | 6 => .ne
  | 7 => .eq
  | 8 => .vc
  | 9 => .vs
  | 10 => .pl
  | 11 => .mi
  | 12 => .ge
  | 13 => .lt
  | 14 => .gt
  | _ => .le

/-- The 4-bit number of a general register: the bank, then the number (30_encoding.md R136; 46 R397). -/
def GReg.bits : GReg → BitVec 4
  | .d n => 0#1 ++ n
  | .a n => 1#1 ++ n

/-- The general register of a 4-bit number. -/
def GReg.ofBits (b : BitVec 4) : GReg :=
  if b.getLsbD 3 then .a (b.extractLsb' 0 3) else .d (b.extractLsb' 0 3)

end Sys2Proof
end

