-- ==== Sys2Proof/Config.lean ====
section
/-! DEFINITION. The implementation parameters of 00_scope.md R7 as plain data, and the free values
(`draw()`, R12). A state carries its configuration (log 1), so every statement about all states holds
for every value of the parameters. -/

namespace Sys2Proof

/-- The ISA tiers, nested A < B < C (30_encoding.md R144). -/
inductive Tier where
  | a | b | c
  deriving DecidableEq, Repr

/-- The tier's place in the order A < B < C. -/
def Tier.rank : Tier → Nat
  | .a => 0
  | .b => 1
  | .c => 2

/-- What the registry depends on, and nothing else: `ISA_TIER` and `HW_DIVIDE` (70 R483). -/
structure Isa where
  tier : Tier
  hwDivide : Bool
  deriving DecidableEq, Repr

/-- A run of byte addresses. -/
structure Region where
  base : Nat
  size : Nat
  deriving DecidableEq, Repr

/-- Whether the byte address lies in the region. -/
def Region.holds (r : Region) (a : Nat) : Bool :=
  decide (r.base ≤ a) && decide (a < r.base + r.size)

/-- The parameters of R7. `MAPPED(a)` is false on the regions of `unmapped`, `IO(a)` is true on those
of `io`; `IPL(t)` is an input and stands in the state. -/
structure Config where
  isa : Isa
  /-- `DUAL_STACK` (D4). -/
  dualStack : Bool
  /-- `A7_BYTE_STEP` (D5). -/
  a7ByteStep : Long
  /-- `USER_HALT` (D6). -/
  userHalt : Bool
  /-- The bytes with `MAPPED(a) = false` (D7). -/
  unmapped : List Region
  /-- The bytes with `IO(a) = true` (D8). -/
  io : List Region
  /-- `CONTROL_REGS` (D9). -/
  controlRegs : List (BitVec 12)
  /-- `PROGRAM_START` (D10). -/
  programStart : Long
  /-- `INITIAL_SSP` (D10). -/
  initialSsp : Long
  /-- `MOV3Q_AN_FLAGS` (D12). -/
  mov3qAnFlags : Bool
  deriving DecidableEq, Repr

/-- `MAPPED(a)` (20_memory.md R86). -/
def Config.mapped (c : Config) (a : Nat) : Bool := !(c.unmapped.any fun r => r.holds a)

/-- `IO(a)` (20_memory.md R87). -/
def Config.isIo (c : Config) (a : Nat) : Bool := c.io.any fun r => r.holds a

/-- `HAS_FPU`: fixed false (D2), so a scale factor of 8 is never legal. -/
def Config.hasFpu : Bool := false

/-- The default `CONTROL_REGS`: the codes of 10_state.md R44. -/
def Config.defaultControlRegs : List (BitVec 12) :=
  [0x002, 0x004, 0x005, 0x006, 0x007, 0x800, 0x801, 0xC00, 0xC01, 0xC04, 0xC05, 0xC0F]

/-- The configuration of `State.reset`: the defaults of R7. DESIGN CHOICE (unsafe, log 1, log 2): tier C,
`PROGRAM_START = 0x1000` and `INITIAL_SSP = 0x4000`, which R7 leaves open without a default. -/
def Config.default : Config where
  isa := { tier := .c, hwDivide := true }
  dualStack := true
  a7ByteStep := 2
  userHalt := false
  unmapped := []
  io := []
  controlRegs := Config.defaultControlRegs
  programStart := 0x1000
  initialSsp := 0x4000
  mov3qAnFlags := true

/-- The n-th `draw()` of a run (R12): a value nothing fixes. It has no body, so nothing can be proved of
it but what holds of every value (log 8). -/
opaque Config.drawValue : Nat → Long

end Sys2Proof
end

