-- ==== Sys2Proof/Machine/State.lean ====
section
/-! DEFINITION. The state of one CPU context (10_state.md, 20_memory.md R87, 60 R445, 70 R480), the
reasons a step stops with the state each leaves, and the state right after reset. -/

namespace Sys2Proof.Machine

/-- The kind of a memory access (20_memory.md R86, R87). -/
inductive AccessKind where
  | fetch | read | write
  deriving DecidableEq, Repr

/-- The reasons of an internal-consistency fault, as the context's mark keeps them (10_state.md R43). -/
inductive FaultReason where
  /-- An access of `n` bytes at `addr` touches a byte with `MAPPED = false` (20 R86). Raised by every fetch,
  load and store. Safe: the model stops where the spec gives the access no value. -/
  | unmappedAccess (addr : Long) (n : Nat) (kind : AccessKind)
  /-- Two definitions match the word in the tier (30 R145). Raised by the fetch of an instruction. Safe: the
  table passes the check, so no word reaches it. -/
  | registryAmbiguity (w : Word) (tier : Tier)
  /-- An operand form a definition does not handle (30 R150). Raised by a decoder defect, and by a meaning
  given operands its row does not admit. Safe: no well-formed instruction reaches it. -/
  | decodeLogicError (w : Word)
  deriving DecidableEq, Repr

/-- The reasons of a refusal, as the context's mark keeps them (10_state.md R43). -/
inductive RefusalReason where
  /-- "recognized but not simulated" (46 R402-R406). Raised by STRLDSR, CPUSHL, INTOUCH, WDDATA and WDEBUG.
  Safe. -/
  | notSimulated (mnemonic : String)
  /-- A word no source gives a behaviour: a tier-A branch with disp8 = 0xFF (30 R153(c)), LINK A7 and
  UNLK A7 (41 R211, R212). Safe. -/
  | unknownBehaviour (w : Word)
  /-- A MUL.L or DIV.L extension word with a reserved bit set (30 R146). Raised by the fetch. Safe. -/
  | reservedExtension (w e : Word)
  /-- MOVEC to a code outside `CONTROL_REGS` (46 R397). Safe. -/
  | unknownControlRegister (code : BitVec 12)
  deriving DecidableEq, Repr

/-- The run state (10_state.md R42). -/
inductive RunState where
  | running | stopped | halted
  deriving DecidableEq, Repr

/-- One device access: kind, address, bytes, value (20_memory.md R87). -/
structure IoEvent where
  kind : AccessKind
  addr : Long
  n : Nat
  value : Long
  deriving DecidableEq, Repr

/-- A sparse map in canonical form: keys strictly rising, no entry holding 0, which is what an unlisted key
reads as (log 6). -/
abbrev Sparse (w : Nat) := List (Nat × BitVec w)

/-- The bytes of memory that are not 0, as `Host.Cell` pairs (20_memory.md R80). -/
abbrev Memory := List Host.Cell

/-- The state of a context. -/
structure State where
  /-- D0 to D7 (10 R30). -/
  dregs : Vector Long 8
  /-- A0 to A6 (10 R31); A7 is a view of `ssp` and `usp`. -/
  aregs : Vector Long 7
  /-- The supervisor stack pointer, and the one A7 when `DUAL_STACK = false` (10 R32). -/
  ssp : Long
  /-- The user stack pointer, also control register 0x800 (10 R32, R46). -/
  usp : Long
  /-- The committed program counter (10 R34). -/
  pc : Long
  /-- The decode cursor (10 R35). -/
  cursor : Long
  /-- The status register (10 R38). -/
  sr : Word
  /-- The vector base register (10 R45). -/
  vbr : Long
  /-- The other control registers by code (10 R44). -/
  ctrl : Sparse 32
  /-- Memory M (20 R80). -/
  mem : Memory
  /-- The run state (10 R42). -/
  runState : RunState
  /-- The sticky fault mark (10 R43). -/
  fault : Option FaultReason
  /-- The sticky refusal mark (10 R43). -/
  refused : Option RefusalReason
  /-- True from exception entry until the handler's first opcode word is fetched (10 R43, 60 R449). -/
  afterException : Bool
  /-- The history of device accesses, oldest first (20 R87). -/
  ioLog : List IoEvent
  /-- `IPL(t), IPL(t+1), …`: the request levels to come, 0 once the list ends (60 R445; log 9). -/
  ipl : List (BitVec 3)
  /-- `IPL(t-1)` (60 R445). -/
  iplPrev : BitVec 3
  /-- The MODEL's own counter of the draws used so far (log 8). -/
  drawCount : Nat
  /-- The parameters (00 R7; log 1). -/
  cfg : Config
  deriving DecidableEq, Repr

/-- Internal-consistency faults: the step ends, and no later step clears the fault (00_scope.md R11). -/
inductive Fault where
  /-- The reason, and the state as it was when the fault hit (41_data_movement.md R215). Raised by every fetch,
  load and store of an unmapped byte, by the lookup of an ambiguous word, by a meaning given operands its row
  does not admit, and by every step of a context that carries the mark. Safe: the model stops. -/
  | hit (why : FaultReason) (left : State)
  deriving DecidableEq, Repr

/-- Refusals: the engine recognises the word and gives it no meaning (00_scope.md R11). -/
inductive Refusal where
  /-- An arm of `exec` that has no meaning yet. Raised by Machine/Dispatch.lean only. Safe. -/
  | notModelled (mnemonic : String)
  /-- The reason, and the state as it was when the step was refused (46 section 4; log 11). Raised by the
  fetch, by the meanings that `RefusalReason` names, and by every step of a context that carries the mark.
  Safe: the model stops. -/
  | stop (why : RefusalReason) (left : State)
  deriving DecidableEq, Repr

/-- The values reset draws (70 R480): D0-D7, A0-A6, USP and the CCR. -/
structure ResetDraws where
  d : Vector Long 8
  a : Vector Long 7
  usp : Long
  ccr : BitVec 5
  deriving DecidableEq, Repr

/-- Reset with a configuration, a program image and the drawn values (70 R480 to R482). -/
def State.resetWith (cfg : Config) (image : Memory) (r : ResetDraws) : State where
  dregs := r.d
  aregs := r.a
  ssp := cfg.initialSsp
  usp := r.usp
  pc := cfg.programStart
  cursor := cfg.programStart
  sr := 0x2700#16 ||| r.ccr.setWidth 16
  vbr := 0
  ctrl := []
  mem := image
  runState := .running
  fault := none
  refused := none
  afterException := false
  ioLog := []
  ipl := []
  iplPrev := 0
  drawCount := 0
  cfg := cfg

/-- The drawn values of `State.reset`: all zero. DESIGN CHOICE, unsafe (log 3, log 4, log 5). -/
def ResetDraws.zero : ResetDraws where
  d := Vector.replicate 8 0
  a := Vector.replicate 7 0
  usp := 0
  ccr := 0

/-- The machine right after reset, with the default configuration and no image (log 1 to log 7). -/
def State.reset : State := State.resetWith Config.default [] ResetDraws.zero

end Sys2Proof.Machine
end

