-- ==== Sys2Proof/Machine/Flags.lean ====
section
/-! DEFINITION. The status register, the condition codes and every flag computation (10_state.md R38-R41,
R47-R55). -/

namespace Sys2Proof.Machine

/-- The five condition codes (10 R38). -/
structure Ccr where
  x : Bool
  n : Bool
  z : Bool
  v : Bool
  c : Bool
  deriving DecidableEq, Repr

/-- The condition codes as SR[4:0] (R38). -/
def Ccr.bits (f : Ccr) : BitVec 5 :=
  BitVec.ofBool f.x ++ BitVec.ofBool f.n ++ BitVec.ofBool f.z ++ BitVec.ofBool f.v ++ BitVec.ofBool f.c

/-- The condition codes that SR[4:0] holds (R38). -/
def Ccr.ofBits (b : BitVec 5) : Ccr where
  x := b.getLsbD 4
  n := b.getLsbD 3
  z := b.getLsbD 2
  v := b.getLsbD 1
  c := b.getLsbD 0

/-- The bits of SR that exist (R39). -/
def srMask : Word := 0xB71F

/-- The condition codes of the state. -/
def State.ccr (s : State) : Ccr := Ccr.ofBits (s.sr.extractLsb' 0 5)

/-- A write of the condition codes: SR[15:5] stay (R40). -/
def State.setCcr (s : State) (f : Ccr) : State := { s with sr := s.sr.extractLsb' 5 11 ++ f.bits }

/-- The one way an instruction writes the whole SR (46 R390): reserved bits stay 0 (R39). -/
def State.setSr (s : State) (v : Word) : State := { s with sr := v &&& srMask }

/-- SR.T (R38). -/
def State.tracing (s : State) : Bool := s.sr.getLsbD 15

/-- SR.S: supervisor mode (R38, R41). -/
def State.supervisor (s : State) : Bool := s.sr.getLsbD 13

/-- SR.M (R38). -/
def State.master (s : State) : Bool := s.sr.getLsbD 12

/-- SR.I, the interrupt mask (R38). -/
def State.intMask (s : State) : BitVec 3 := s.sr.extractLsb' 8 3

/-- Add flags (R47) for the result `r` of `a + b + cin` at the size; Z is conjunctive for an
extend-chained add (R51). -/
def addFlags (sz : Size) (a b r : Long) (chained : Bool) (old : Ccr) : Ccr :=
  let c := sz.msb ((a &&& b) ||| ((a ||| b) &&& ~~~r))
  { x := c
    n := sz.msb r
    z := (!chained || old.z) && sz.trunc r == 0
    v := sz.msb ((a ^^^ r) &&& (b ^^^ r))
    c := c }

/-- Subtract flags (R48) for the result `r` of `d - s - bin` at the size; Z is conjunctive for an
extend-chained subtract (R51). -/
def subFlags (sz : Size) (d s r : Long) (chained : Bool) (old : Ccr) : Ccr :=
  let c := sz.msb ((s &&& ~~~d) ||| (r &&& ~~~d) ||| (s &&& r))
  { x := c
    n := sz.msb r
    z := (!chained || old.z) && sz.trunc r == 0
    v := sz.msb ((s ^^^ d) &&& (r ^^^ d))
    c := c }

/-- Compare flags (R49): the subtract flags with X kept. -/
def cmpFlags (sz : Size) (d s r : Long) (old : Ccr) : Ccr :=
  { subFlags sz d s r false old with x := old.x }

/-- `SetLogicFlags(r, sz)` (R52). -/
def logicFlags (sz : Size) (r : Long) (old : Ccr) : Ccr :=
  { x := old.x, n := sz.msb r, z := sz.trunc r == 0, v := false, c := false }

/-- `SetZeroFlag(z)` (R53). -/
def zeroFlag (z : Bool) (old : Ccr) : Ccr := { old with z := z }

/-- The sixteen conditions (R54). -/
def Ccr.holds (f : Ccr) : Cond → Bool
  | .t => true
  | .f => false
  | .hi => !f.c && !f.z
  | .ls => f.c || f.z
  | .cc => !f.c
  | .cs => f.c
  | .ne => !f.z
  | .eq => f.z
  | .vc => !f.v
  | .vs => f.v
  | .pl => !f.n
  | .mi => f.n
  | .ge => f.n == f.v
  | .lt => f.n != f.v
  | .gt => !f.z && f.n == f.v
  | .le => f.z || f.n != f.v

end Sys2Proof.Machine
end

