-- ==== Sys2Proof/Machine/Sparse.lean ====
section
/-! DEFINITION. Reading and writing a sparse map in canonical form: memory (20_memory.md R80) and the
control registers (10_state.md R44). -/

namespace Sys2Proof.Machine

/-- What the map holds at a key; 0 where nothing is listed (log 6). -/
def Sparse.get {w : Nat} (m : Sparse w) (k : Nat) : BitVec w :=
  match m with
  | [] => 0
  | (j, v) :: m => if j = k then v else Sparse.get m k

/-- The map with one entry put before the rest, none for the value 0. -/
def Sparse.put {w : Nat} (k : Nat) (v : BitVec w) (m : Sparse w) : Sparse w :=
  if v = 0 then m else (k, v) :: m

/-- The map with `v` at key `k`, still in canonical form. -/
def Sparse.set {w : Nat} (m : Sparse w) (k : Nat) (v : BitVec w) : Sparse w :=
  match m with
  | [] => Sparse.put k v []
  | (j, u) :: m =>
    if k < j then Sparse.put k v ((j, u) :: m)
    else if k = j then Sparse.put k v m
    else (j, u) :: Sparse.set m k v

/-- Whether the keys rise strictly from `lo` on, stay below `hi`, and no entry is 0. -/
def Sparse.wfFrom {w : Nat} (hi : Nat) (lo : Nat) (m : Sparse w) : Bool :=
  match m with
  | [] => true
  | (j, v) :: m => decide (lo ≤ j) && decide (j < hi) && v != 0 && Sparse.wfFrom hi (j + 1) m

/-- The canonical form of memory: addresses strictly rising and below 2^32, no entry that reads as an
unlisted byte does. -/
def Memory.wf (m : Memory) : Bool := Sparse.wfFrom (w := 8) (2 ^ 32) 0 m

/-- The canonical form of the control registers: codes strictly rising and below 2^12, no entry 0. -/
def ctrlWf (m : Sparse 32) : Bool := Sparse.wfFrom (2 ^ 12) 0 m

end Sys2Proof.Machine
end

