-- ==== Sys2Proof/Machine/Ops.lean ====
section
/-! DEFINITION. The named operations over registers and memory (10_state.md R30-R37, R44-R46; 20_memory.md
R80-R89), the ways an instruction ends, taking an exception (60 R432-R434) and returning from one (46 R398). -/

namespace Sys2Proof.Machine

/-- What a step or a meaning answers. -/
abbrev Result := Host.Outcome State Fault Refusal

/-- Goes on with a value and a state, or ends with the fault. -/
def withValue {α : Type} (r : Except Fault (α × State)) (k : α → State → Result) : Result :=
  match r with
  | .error e => .fault e
  | .ok (v, s) => k v s

/-- Goes on with a state, or ends with the fault. -/
def withState (r : Except Fault State) (k : State → Result) : Result :=
  match r with
  | .error e => .fault e
  | .ok s => k s

/-- Ends the step with a fault; the context keeps this state (00 R11; 41 R215). -/
def State.faulted (s : State) (why : FaultReason) : Fault := .hit why s

/-- Ends the step with a refusal; the context keeps this state (00 R11; log 11). -/
def State.refuse (s : State) (why : RefusalReason) : Result := .refused (.stop why s)

/-- `D[n]` (R30). -/
def State.d (s : State) (n : RegNo) : Long := s.dregs[n.toNat]

/-- `D[n] <- v` (R30). -/
def State.setD (s : State) (n : RegNo) (v : Long) : State := { s with dregs := s.dregs.set n.toNat v }

/-- `WriteD(n, sz, v)`: the bits above the size are kept (R33). -/
def State.writeD (s : State) (n : RegNo) (sz : Size) (v : Long) : State :=
  s.setD n (sz.insert (s.d n) v)

/-- A7 names USP: `DUAL_STACK` and user mode (R32). -/
def State.onUsp (s : State) : Bool := s.cfg.dualStack && !s.supervisor

/-- `A[n]`; A7 is the stack pointer of the current mode (R31, R32). -/
def State.a (s : State) (n : RegNo) : Long :=
  if h : n.toNat < 7 then s.aregs[n.toNat] else if s.onUsp then s.usp else s.ssp

/-- `A[n] <- v`, always 32 bits (R31 to R33). -/
def State.setA (s : State) (n : RegNo) (v : Long) : State :=
  if h : n.toNat < 7 then { s with aregs := s.aregs.set n.toNat v }
  else if s.onUsp then { s with usp := v }
  else { s with ssp := v }

/-- The user stack pointer as MOVE USP and OTHER_A7 see it: the one A7 when `DUAL_STACK = false` (R32, R46).
The mode is not asked: an access in user mode, the host's alone, is to USP too (DESIGN CHOICE, log 34). -/
def State.userSp (s : State) : Long := if s.cfg.dualStack then s.usp else s.ssp

/-- A write of the user stack pointer by MOVE to USP or MOVEC (R32, R46), or by the host in either mode (DESIGN
CHOICE, log 34). -/
def State.setUserSp (s : State) (v : Long) : State :=
  if s.cfg.dualStack then { s with usp := v } else { s with ssp := v }

/-- A general register. -/
def State.reg (s : State) : GReg → Long
  | .d n => s.d n
  | .a n => s.a n

/-- A write of a general register. -/
def State.setReg (s : State) : GReg → Long → State
  | .d n, v => s.setD n v
  | .a n, v => s.setA n v

/-- A control register by its code (R44 to R46). OTHER_A7 is USP, as R44's table has it, in user mode too, where
R46's "stack pointer of the other mode" would be SSP (DESIGN CHOICE, log 34). -/
def State.control (s : State) (code : BitVec 12) : Long :=
  if code = 0x801 then s.vbr
  else if code = 0x800 then s.userSp
  else Sparse.get s.ctrl code.toNat

/-- A write of a control register by its code: VBR keeps bits 31:20, OTHER_A7 is the user stack pointer, any
other is stored (R44 to R46; 46 R397). OTHER_A7 is so in user mode too (DESIGN CHOICE, log 34). -/
def State.setControl (s : State) (code : BitVec 12) (v : Long) : State :=
  if code = 0x801 then { s with vbr := v &&& 0xFFF00000 }
  else if code = 0x800 then s.setUserSp v
  else { s with ctrl := Sparse.set s.ctrl code.toNat v }

/-- The special registers a descriptor names (20 R90). -/
inductive SpecialReg where
  | sr | ccr | usp
  | control (code : BitVec 12)
  deriving DecidableEq, Repr

/-- The value of a special register (46 R391, R393, R396; R44). -/
def State.special (s : State) : SpecialReg → Long
  | .sr => s.sr.setWidth 32
  | .ccr => zext8 (s.sr.setWidth 32)
  | .usp => s.userSp
  | .control code => s.control code

/-- A write of a special register (46 R392, R394, R395, R397). -/
def State.setSpecial (s : State) (v : Long) : SpecialReg → State
  | .sr => s.setSr (v.setWidth 16)
  | .ccr => s.setCcr (Ccr.ofBits (v.setWidth 5))
  | .usp => s.setUserSp v
  | .control code => s.setControl code v

/-- The next `draw()` (00 R12) and the state that has used it. -/
def State.draw (s : State) : Long × State :=
  (Config.drawValue s.drawCount, { s with drawCount := s.drawCount + 1 })

/-- A one-bit `draw()`. -/
def State.drawBit (s : State) : Bool × State := (s.draw.1.getLsbD 0, s.draw.2)

/-- The byte addresses `a, a+1, …, a+n-1`, modulo 2^32 (20 R81). -/
def spanAddrs (a : Long) (n : Nat) : List Nat := (List.range n).map fun k => (a + BitVec.ofNat 32 k).toNat

/-- Every byte of the access is mapped (20 R86). -/
def State.mappedAt (s : State) (a : Long) (n : Nat) : Bool := (spanAddrs a n).all s.cfg.mapped

/-- Some byte of the access is a device's (20 R87). -/
def State.ioAt (s : State) (a : Long) (n : Nat) : Bool := (spanAddrs a n).any s.cfg.isIo

/-- The byte of memory at an address. -/
def State.byteAt (s : State) (a : Nat) : Byte := Sparse.get (w := 8) s.mem a

/-- `MemRead(addr, n)` on memory alone: big-endian (20 R81). -/
def State.peek (s : State) (a : Long) (sz : Size) : Long :=
  joinBytes ((spanAddrs a sz.bytes).map s.byteAt)

/-- The bytes of `vs` stored at the addresses, in order. -/
def pokeBytes (m : Memory) : List Nat → List Byte → Memory
  | a :: as, v :: vs => pokeBytes (Sparse.set (w := 8) m a v) as vs
  | _, _ => m

/-- `MemWrite(addr, n, v)` on memory alone: big-endian (20 R82). -/
def State.poke (s : State) (a : Long) (sz : Size) (v : Long) : State :=
  { s with mem := pokeBytes s.mem (spanAddrs a sz.bytes) ((List.range sz.bytes).map (sz.byteAt v)) }

/-- Appends a device access to the history (20 R87). -/
def State.logIo (s : State) (kind : AccessKind) (a : Long) (sz : Size) (v : Long) : State :=
  { s with ioLog := s.ioLog ++ [{ kind := kind, addr := a, n := sz.bytes, value := v }] }

/-- A mapped read or fetch: of memory, or of a device, which answers a draw of the width and is logged
(20 R81, R87). -/
def State.access (s : State) (kind : AccessKind) (a : Long) (sz : Size) : Long × State :=
  if s.ioAt a sz.bytes then (sz.trunc s.draw.1, s.draw.2.logIo kind a sz (sz.trunc s.draw.1))
  else (s.peek a sz, s)

/-- A read or fetch of 1, 2 or 4 bytes (20 R81, R83, R86, R87). -/
def State.load (s : State) (kind : AccessKind) (a : Long) (sz : Size) : Except Fault (Long × State) :=
  if s.mappedAt a sz.bytes then .ok (s.access kind a sz)
  else .error (s.faulted (.unmappedAccess a sz.bytes kind))

/-- A mapped write: to memory, or to a device, which leaves memory alone and is logged (20 R82, R87). -/
def State.deposit (s : State) (a : Long) (sz : Size) (v : Long) : State :=
  if s.ioAt a sz.bytes then s.logIo .write a sz (sz.trunc v) else s.poke a sz v

/-- A write of 1, 2 or 4 bytes (20 R82, R83, R86, R87). -/
def State.store (s : State) (a : Long) (sz : Size) (v : Long) : Except Fault State :=
  if s.mappedAt a sz.bytes then .ok (s.deposit a sz v)
  else .error (s.faulted (.unmappedAccess a sz.bytes .write))

/-- `Push(v)` (20 R89). -/
def State.push (s : State) (v : Long) : Except Fault State :=
  (s.setA 7 (s.a 7 - 4)).store (s.a 7 - 4) .l v

/-- `Pull()` (20 R89). -/
def State.pull (s : State) : Except Fault (Long × State) :=
  match s.load .read (s.a 7) .l with
  | .error e => .error e
  | .ok (v, s') => .ok (v, s'.setA 7 (s'.a 7 + 4))

/-- Completion without a control transfer: `pc <- cursor` (10 R36). -/
def State.commit (s : State) : Result := .next { s with pc := s.cursor }

/-- A control transfer: `pc <- target` (10 R36). -/
def State.goto (s : State) (target : Long) : Result := .next { s with pc := target }

/-- The fault of an operand form the definition does not handle; its word is the one at `pc` (30 R150; log 18). -/
def State.logicError (s : State) : Fault := s.faulted (.decodeLogicError ((s.peek s.pc .w).setWidth 16))

/-- The exception kinds this block raises (60 R432). -/
inductive ExcKind where
  | addressError
  | illegalInstruction
  | divideByZero
  | privilegeViolation
  | trace
  | lineA
  | lineF
  | formatError
  | trap (v : BitVec 4)
  | interrupt (level : BitVec 3)
  deriving DecidableEq, Repr

/-- The vector number of an exception (60 R430, R432). -/
def ExcKind.vector : ExcKind → BitVec 8
  | .addressError => 3
  | .illegalInstruction => 4
  | .divideByZero => 5
  | .privilegeViolation => 8
  | .trace => 9
  | .lineA => 10
  | .lineF => 11
  | .formatError => 14
  | .trap v => 32 + v.setWidth 8
  | .interrupt level => 24 + level.setWidth 8

/-- The stacked PC: the next instruction's address for a trap, else the committed PC (60 R430, R432). -/
def ExcKind.stackedPc (k : ExcKind) (s : State) : Long :=
  match k with
  | .trap _ => s.cursor
  | _ => s.pc

/-- The interrupt level an entry takes into SR.I (60 R434, R446). -/
def ExcKind.level : ExcKind → Option (BitVec 3)
  | .interrupt level => some level
  | _ => none

/-- SR after entry: S set, T cleared, and for an interrupt I the level and M cleared (60 R434). -/
def entrySr (old : Word) : Option (BitVec 3) → Word
  | none => (old ||| 0x2000) &&& 0x7FFF
  | some level => ((old ||| 0x2000) &&& 0x68FF) ||| (level.setWidth 16 <<< 8)

/-- The first long word of the exception frame: FORMAT, FS = 0, VECTOR, FS = 0, SR (60 R433). -/
def frameWord (sp : Long) (vector : BitVec 8) (old : Word) : Long :=
  1#2 ++ sp.extractLsb' 0 2 ++ 0#2 ++ vector ++ 0#2 ++ old

/-- A stack pointer aligned down to a long word (60 R434). -/
def alignDown (sp : Long) : Long := sp &&& 0xFFFFFFFC

/-- The address of the handler's long word in the vector table (60 R431). -/
def State.vectorAddr (s : State) (vector : BitVec 8) : Long := s.vbr + 4 * vector.setWidth 32

/-- `Enter(vector, stacked_pc, level)`: taking an exception (60 R434). -/
def State.enter (s : State) (vector : BitVec 8) (stacked : Long) (level : Option (BitVec 3)) : Result :=
  let s1 := { s with sr := entrySr s.sr level }
  let sp := s1.a 7
  withState (s1.store (alignDown sp - 4) .l stacked) fun s2 =>
    withState (s2.store (alignDown sp - 8) .l (frameWord sp vector s.sr)) fun s3 =>
      let s4 := { s3.setA 7 (alignDown sp - 8) with runState := .running, afterException := true }
      withValue (s4.load .read (s4.vectorAddr vector) .l) fun handler s5 => s5.goto handler

/-- `raise Kind`: ends the instruction and enters the exception (60 R434). -/
def State.raise (s : State) (k : ExcKind) : Result := s.enter k.vector (k.stackedPc s) k.level

/-- The frame format RTE accepts: 4 to 7 (46 R398; 60 R443). -/
def frameFormatOk (f : Long) : Bool := f.extractLsb' 30 2 == 1#2

/-- Return from exception: both long words are read, the misalignment is added back, then SR and PC are
restored (46 R398; 60 R447). -/
def State.returnFromException (s : State) : Result :=
  let sp := s.a 7
  withValue (s.load .read sp .l) fun f s1 =>
    withValue (s1.load .read (sp + 4) .l) fun newPc s2 =>
      if frameFormatOk f then
        ((s2.setA 7 (sp + 8 + (f.extractLsb' 28 2).setWidth 32)).setSr (f.extractLsb' 0 16)).goto newPc
      else s2.raise .formatError

/-- A privileged instruction: its effect in supervisor mode, a privilege violation otherwise (60 R436). -/
def State.privileged (s : State) (effect : Result) : Result :=
  if s.supervisor then effect else s.raise .privilegeViolation

end Sys2Proof.Machine
end

