-- ==== Sys2Proof/Machine/Operands.lean ====
section
/-! DEFINITION. Every operand form: effective-address resolution (20_memory.md R91-R106), quick immediates and
shift counts (30_encoding.md R137; 44 R329), branch targets (45 R360). -/

namespace Sys2Proof.Machine

/-- Where an operand is (20 R91). -/
inductive Loc where
  | dreg (n : RegNo)
  | areg (n : RegNo)
  | mem (addr : Long)
  | value (v : Long)
  | special (reg : SpecialReg)
  deriving DecidableEq, Repr

/-- The step of `(An)+` and `-(An)` (20 R94). -/
def State.autoStep (s : State) (n : RegNo) (sz : Size) : Long :=
  if n = 7 ∧ sz = .b then s.cfg.a7ByteStep else BitVec.ofNat 32 sz.bytes

/-- The scale as a factor (20 R97). -/
def Scale.factor : Scale → Long
  | .one => 1
  | .two => 2
  | .four => 4

/-- `sext_8(d8) + X * scale` (20 R97, R101). -/
def State.indexed (s : State) (x : Brief) : Long :=
  x.d8.signExtend 32 + s.reg x.xreg * Scale.factor x.scale

/-- The base of the PC-relative modes: the address of the EA's extension word, `pc + 2` (20 R100). -/
def State.pcBase (s : State) : Long := s.pc + 2

/-- The location a descriptor names, before any side effect, with the base of the PC-relative modes
(20 R92 to R102). -/
def State.locateFrom (s : State) (base : Long) (sz : Size) : Ea → Loc
  | .dn n => .dreg n
  | .an n => .areg n
  | .ind n => .mem (s.a n)
  | .postInc n => .mem (s.a n)
  | .preDec n => .mem (s.a n - s.autoStep n sz)
  | .disp n d16 => .mem (s.a n + d16.signExtend 32)
  | .index n x => .mem (s.a n + s.indexed x)
  | .absW a16 => .mem (a16.signExtend 32)
  | .absL a32 => .mem a32
  | .pcDisp d16 => .mem (base + d16.signExtend 32)
  | .pcIndex x => .mem (base + s.indexed x)
  | .immB v => .value (v.setWidth 32)
  | .immW v => .value (v.setWidth 32)
  | .immL v => .value v

/-- The location a descriptor of the present instruction names (20 R92 to R102). -/
def State.locate (s : State) (sz : Size) (ea : Ea) : Loc := s.locateFrom s.pcBase sz ea

/-- The address-register change of `(An)+` and `-(An)` (20 R94, R95, R103). -/
def State.autoUpdate (s : State) (sz : Size) : Ea → State
  | .postInc n => s.setA n (s.a n + s.autoStep n sz)
  | .preDec n => s.setA n (s.a n - s.autoStep n sz)
  | _ => s

/-- `Resolve(desc, sz, side_effects)` (20 R91, R103, R104). -/
def State.resolve (s : State) (effects : Bool) (sz : Size) (ea : Ea) : Loc × State :=
  (s.locate sz ea, if effects then s.autoUpdate sz ea else s)

/-- The bytes a location's access touches are mapped (20 R86). -/
def State.locMapped (s : State) (sz : Size) : Loc → Bool
  | .mem a => s.mappedAt a sz.bytes
  | _ => true

/-- `ReadOp(loc, sz)` of a mapped location (20 R106); of a special register, its value (log 33). -/
def State.locValue (s : State) (sz : Size) : Loc → Long × State
  | .dreg n => (sz.trunc (s.d n), s)
  | .areg n => (sz.trunc (s.a n), s)
  | .mem a => s.access .read a sz
  | .value v => (sz.trunc v, s)
  | .special r => (sz.trunc (s.special r), s)

/-- `ReadOp(loc, sz)` (20 R106). -/
def State.readLoc (s : State) (sz : Size) : Loc → Except Fault (Long × State)
  | .mem a => s.load .read a sz
  | loc => .ok (s.locValue sz loc)

/-- `WriteOp(loc, sz, v)` (20 R106); an immediate is never a destination (R102); of a special register, its
write (log 33). -/
def State.writeLoc (s : State) (sz : Size) (v : Long) : Loc → Except Fault State
  | .dreg n => .ok (s.writeD n sz v)
  | .areg n => .ok (s.setA n v)
  | .mem a => s.store a sz v
  | .value _ => .error s.logicError
  | .special r => .ok (s.setSpecial v r)

/-- Goes on with the value of a source operand: resolved once, then read (20 R103, R105). -/
def State.withSource (s : State) (sz : Size) (ea : Ea) (k : Long → State → Result) : Result :=
  let (loc, s1) := s.resolve true sz ea
  withValue (s1.readLoc sz loc) k

/-- Goes on with a destination that is read and then written at the same place (20 R103). -/
def State.withTarget (s : State) (sz : Size) (ea : Ea) (k : Loc → Long → State → Result) : Result :=
  let (loc, s1) := s.resolve true sz ea
  withValue (s1.readLoc sz loc) (k loc)

/-- Goes on with the address of an operand in memory, with no access to it. -/
def State.withAddress (s : State) (sz : Size) (ea : Ea) (k : Long → State → Result) : Result :=
  match s.resolve true sz ea with
  | (.mem a, s1) => k a s1
  | _ => .fault s.logicError

/-- Writes a location, sets the condition codes and commits. -/
def State.finish (s : State) (loc : Loc) (sz : Size) (v : Long) (f : Ccr) : Result :=
  withState (s.writeLoc sz v loc) fun s1 => (s1.setCcr f).commit

/-- Writes a data register, sets the condition codes and commits. -/
def State.finishD (s : State) (x : RegNo) (v : Long) (f : Ccr) : Result := ((s.setD x v).setCcr f).commit

/-- A quick immediate of ADDQ and SUBQ, and an immediate shift count: 0 means 8 (30 R137; 44 R329). -/
def quickValue (q : BitVec 3) : Nat := if q = 0 then 8 else q.toNat

/-- The quick immediate of MOV3Q: 0 means -1 (30 R137). -/
def mov3qValue (q : BitVec 3) : Long := if q = 0 then 0xFFFFFFFF else q.setWidth 32

/-- A shift count taken from a data register, modulo 64 (44 R329). -/
def shiftCount (v : Long) : Nat := v.toNat % 64

/-- `target = p + 2 + disp`, modulo 2^32, in every branch form (45 R360). -/
def State.branchTarget (s : State) (disp : Long) : Long := s.pc + 2 + disp

end Sys2Proof.Machine
end

