-- ==== Sys2Proof/Machine/DataMovement.lean ====
section
/-! DEFINITION. Data movement: MOVE, MOVEA, MOVEQ, MOV3Q, MVS, MVZ, MOVEM, LEA, PEA, LINK, UNLK, CLR, SWAP
(41_data_movement.md R200-R214). -/

namespace Sys2Proof.Machine

/-- MOVE at a size: the source is read before the destination is resolved (R201; 20 R105). -/
def State.moveData (s : State) (sz : Size) (src dst : Ea) : Result :=
  s.withSource sz src fun v s1 =>
    let (loc, s2) := s1.resolve true sz dst
    s2.finish loc sz v (logicFlags sz v s2.ccr)

/-- A source read at a size, made a long word by `f` and loaded into an address register; no flags (R202). -/
def State.moveAddress (s : State) (sz : Size) (f : Long → Long) (src : Ea) (x : RegNo) : Result :=
  s.withSource sz src fun v s1 => (s1.setA x (f v)).commit

/-- A source read at a size and extended by `f` into a data register, with the flags of the long result
(R205, R206). -/
def State.moveExtended (s : State) (sz : Size) (f : Long → Long) (src : Ea) (x : RegNo) : Result :=
  s.withSource sz src fun v s1 => s1.finishD x (f v) (logicFlags .l (f v) s1.ccr)

/-- CLR at a size: a write only (R213). -/
def State.clear (s : State) (sz : Size) (dst : Ea) : Result :=
  let (loc, s1) := s.resolve true sz dst
  s1.finish loc sz 0 { x := s1.ccr.x, n := false, z := true, v := false, c := false }

/-- MOVE.B (R201). -/
def execMoveB (src dst : Ea) (s : State) : Result := s.moveData .b src dst

/-- MOVE.W (R201). -/
def execMoveW (src dst : Ea) (s : State) : Result := s.moveData .w src dst

/-- MOVE.L (R201). -/
def execMoveL (src dst : Ea) (s : State) : Result := s.moveData .l src dst

/-- MOVEA.W: the word is sign-extended (R202). -/
def execMoveaW (src : Ea) (rx : RegNo) (s : State) : Result := s.moveAddress .w sext16 src rx

/-- MOVEA.L (R202). -/
def execMoveaL (src : Ea) (rx : RegNo) (s : State) : Result := s.moveAddress .l id src rx

/-- MOVEQ (R203). -/
def execMoveq (d8 : Byte) (dx : RegNo) (s : State) : Result :=
  s.finishD dx (d8.signExtend 32) (logicFlags .l (d8.signExtend 32) s.ccr)

/-- The descriptor is address register direct. -/
def Ea.isAn : Ea → Bool
  | .an _ => true
  | _ => false

/-- MOV3Q: to An the flags are written only if `MOV3Q_AN_FLAGS` (R204). -/
def execMov3q (q : BitVec 3) (dst : Ea) (s : State) : Result :=
  let v := mov3qValue q
  let (loc, s1) := s.resolve true .l dst
  s1.finish loc .l v (if Ea.isAn dst && !s1.cfg.mov3qAnFlags then s1.ccr else logicFlags .l v s1.ccr)

/-- MVS.B (R205). -/
def execMvsB (src : Ea) (rx : RegNo) (s : State) : Result := s.moveExtended .b sext8 src rx

/-- MVS.W (R205). -/
def execMvsW (src : Ea) (rx : RegNo) (s : State) : Result := s.moveExtended .w sext16 src rx

/-- MVZ.B (R206). -/
def execMvzB (src : Ea) (rx : RegNo) (s : State) : Result := s.moveExtended .b zext8 src rx

/-- MVZ.W (R206). -/
def execMvzW (src : Ea) (rx : RegNo) (s : State) : Result := s.moveExtended .w zext16 src rx

/-- The register of a mask bit: D0 to D7, then A0 to A7 (R207). -/
def maskReg (i : Nat) : GReg := if i < 8 then .d (BitVec.ofNat 3 i) else .a (BitVec.ofNat 3 (i - 8))

/-- The registers of a mask in ascending order (R207). -/
def maskRegs (mask : Word) : List GReg := ((List.range 16).filter fun i => mask.getLsbD i).map maskReg

/-- Stores registers as long words at ascending addresses (R207). -/
def storeRegs : List GReg → Long → State → Except Fault State
  | [], _, s => .ok s
  | r :: rs, a, s =>
    match s.store a .l (s.reg r) with
    | .error e => .error e
    | .ok s1 => storeRegs rs (a + 4) s1

/-- Loads registers from long words at ascending addresses (R208). -/
def loadRegs : List GReg → Long → State → Except Fault State
  | [], _, s => .ok s
  | r :: rs, a, s =>
    match s.load .read a .l with
    | .error e => .error e
    | .ok (v, s1) => loadRegs rs (a + 4) (s1.setReg r v)

/-- MOVEM, registers to memory: the addresses come from the base's value at the start (R207). -/
def execMovemToMem (mask : Word) (dst : Ea) (s : State) : Result :=
  s.withAddress .l dst fun a s1 => withState (storeRegs (maskRegs mask) a s1) State.commit

/-- MOVEM, memory to registers: the addresses come from the base's value at the start (R208). -/
def execMovemToRegs (src : Ea) (mask : Word) (s : State) : Result :=
  s.withAddress .l src fun a s1 => withState (loadRegs (maskRegs mask) a s1) State.commit

/-- LEA (R209). -/
def execLea (src : Ea) (rx : RegNo) (s : State) : Result :=
  s.withAddress .l src fun a s1 => (s1.setA rx a).commit

/-- PEA: the address is computed before the push (R210). -/
def execPea (ea : Ea) (s : State) : Result :=
  s.withAddress .l ea fun a s1 => withState (s1.push a) State.commit

/-- LINK: the register is pushed, takes the stack pointer, and the displacement is added to the stack
pointer; A7 is refused (R211). -/
def execLink (ay : RegNo) (d16 : Word) (s : State) : Result :=
  if ay = 7 then s.refuse (.unknownBehaviour 0x4E57)
  else withState (s.push (s.a ay)) fun s1 =>
    let s2 := s1.setA ay (s1.a 7)
    (s2.setA 7 (s2.a 7 + d16.signExtend 32)).commit

/-- UNLK: the stack pointer takes the register, which is pulled; A7 is refused (R212). -/
def execUnlk (r : RegNo) (s : State) : Result :=
  if r = 7 then s.refuse (.unknownBehaviour 0x4E5F)
  else withValue (s.setA 7 (s.a r)).pull fun v s1 => (s1.setA r v).commit

/-- CLR.B (R213). -/
def execClrB (ea : Ea) (s : State) : Result := s.clear .b ea

/-- CLR.W (R213). -/
def execClrW (ea : Ea) (s : State) : Result := s.clear .w ea

/-- CLR.L (R213). -/
def execClrL (ea : Ea) (s : State) : Result := s.clear .l ea

/-- SWAP (R214). -/
def execSwap (r : RegNo) (s : State) : Result :=
  let v : Long := (s.d r).extractLsb' 0 16 ++ (s.d r).extractLsb' 16 16
  s.finishD r v (logicFlags .l v s.ccr)

end Sys2Proof.Machine
end

