-- ==== Sys2Proof/Machine/IntegerArith.lean ====
section
/-! DEFINITION. Integer arithmetic: ADD, SUB, CMP and their families, NEG, NEGX, EXT, EXTB, TST, SATS
(42_integer_arith.md R250-R271). -/

namespace Sys2Proof.Machine

/-- CMP at a size: the data register is truncated first and nothing but flags is written (R262). -/
def State.compareD (s : State) (sz : Size) (src : Ea) (x : RegNo) : Result :=
  s.withSource sz src fun v s1 =>
    let d := sz.trunc (s1.d x)
    (s1.setCcr (cmpFlags sz d v (sz.trunc (d - v)) s1.ccr)).commit

/-- CMPA: a source read at a size, made a long word by `f`, is compared at long size (R263). -/
def State.compareA (s : State) (sz : Size) (f : Long → Long) (src : Ea) (x : RegNo) : Result :=
  s.withSource sz src fun v s1 =>
    (s1.setCcr (cmpFlags .l (s1.a x) (f v) (s1.a x - f v) s1.ccr)).commit

/-- CMPI at a size, with the immediate already truncated (R264). -/
def State.compareImm (s : State) (sz : Size) (v : Long) (x : RegNo) : Result :=
  let d := sz.trunc (s.d x)
  (s.setCcr (cmpFlags sz d v (sz.trunc (d - v)) s.ccr)).commit

/-- TST at a size (R270). -/
def State.test (s : State) (sz : Size) (src : Ea) : Result :=
  s.withSource sz src fun v s1 => (s1.setCcr (logicFlags sz v s1.ccr)).commit

/-- X as a long word, the carry or borrow of an extend-chained operation (10 R47, R48). -/
def State.xBit (s : State) : Long := if s.ccr.x then 1 else 0

/-- ADD.L `<ea>,Dx` (R250). -/
def execAddEaDn (src : Ea) (rx : RegNo) (s : State) : Result :=
  s.withSource .l src fun v s1 =>
    let d := s1.d rx
    s1.finishD rx (d + v) (addFlags .l d v (d + v) false s1.ccr)

/-- ADD.L `Dy,<ea>` (R251). -/
def execAddDnEa (ry : RegNo) (dst : Ea) (s : State) : Result :=
  s.withTarget .l dst fun loc d s1 =>
    let v := s1.d ry
    s1.finish loc .l (d + v) (addFlags .l d v (d + v) false s1.ccr)

/-- ADDA.L (R252). -/
def execAdda (src : Ea) (rx : RegNo) (s : State) : Result :=
  s.withSource .l src fun v s1 => (s1.setA rx (s1.a rx + v)).commit

/-- ADDI.L (R253). -/
def execAddi (imm : Long) (dx : RegNo) (s : State) : Result :=
  let d := s.d dx
  s.finishD dx (d + imm) (addFlags .l d imm (d + imm) false s.ccr)

/-- ADDQ.L: no flags when the destination is An (R254). -/
def execAddq (q : BitVec 3) (dst : Ea) (s : State) : Result :=
  let v : Long := BitVec.ofNat 32 (quickValue q)
  match dst with
  | .an n => (s.setA n (s.a n + v)).commit
  | dst => s.withTarget .l dst fun loc d s1 =>
    s1.finish loc .l (d + v) (addFlags .l d v (d + v) false s1.ccr)

/-- ADDX.L (R255). -/
def execAddx (dy dx : RegNo) (s : State) : Result :=
  let d := s.d dx
  let v := s.d dy
  let r := d + v + s.xBit
  s.finishD dx r (addFlags .l d v r true s.ccr)

/-- SUB.L `<ea>,Dx` (R256). -/
def execSubEaDn (src : Ea) (rx : RegNo) (s : State) : Result :=
  s.withSource .l src fun v s1 =>
    let d := s1.d rx
    s1.finishD rx (d - v) (subFlags .l d v (d - v) false s1.ccr)

/-- SUB.L `Dy,<ea>` (R257). -/
def execSubDnEa (ry : RegNo) (dst : Ea) (s : State) : Result :=
  s.withTarget .l dst fun loc d s1 =>
    let v := s1.d ry
    s1.finish loc .l (d - v) (subFlags .l d v (d - v) false s1.ccr)

/-- SUBA.L (R258). -/
def execSuba (src : Ea) (rx : RegNo) (s : State) : Result :=
  s.withSource .l src fun v s1 => (s1.setA rx (s1.a rx - v)).commit

/-- SUBI.L (R259). -/
def execSubi (imm : Long) (dx : RegNo) (s : State) : Result :=
  let d := s.d dx
  s.finishD dx (d - imm) (subFlags .l d imm (d - imm) false s.ccr)

/-- SUBQ.L: no flags when the destination is An (R260). -/
def execSubq (q : BitVec 3) (dst : Ea) (s : State) : Result :=
  let v : Long := BitVec.ofNat 32 (quickValue q)
  match dst with
  | .an n => (s.setA n (s.a n - v)).commit
  | dst => s.withTarget .l dst fun loc d s1 =>
    s1.finish loc .l (d - v) (subFlags .l d v (d - v) false s1.ccr)

/-- SUBX.L (R261). -/
def execSubx (dy dx : RegNo) (s : State) : Result :=
  let d := s.d dx
  let v := s.d dy
  let r := d - v - s.xBit
  s.finishD dx r (subFlags .l d v r true s.ccr)

/-- CMP.B (R262). -/
def execCmpB (src : Ea) (rx : RegNo) (s : State) : Result := s.compareD .b src rx

/-- CMP.W (R262). -/
def execCmpW (src : Ea) (rx : RegNo) (s : State) : Result := s.compareD .w src rx

/-- CMP.L (R262). -/
def execCmpL (src : Ea) (rx : RegNo) (s : State) : Result := s.compareD .l src rx

/-- CMPA.W: the word is sign-extended (R263). -/
def execCmpaW (src : Ea) (rx : RegNo) (s : State) : Result := s.compareA .w sext16 src rx

/-- CMPA.L (R263). -/
def execCmpaL (src : Ea) (rx : RegNo) (s : State) : Result := s.compareA .l id src rx

/-- CMPI.B (R264). -/
def execCmpiB (imm : Byte) (dx : RegNo) (s : State) : Result := s.compareImm .b (imm.setWidth 32) dx

/-- CMPI.W (R264). -/
def execCmpiW (imm : Word) (dx : RegNo) (s : State) : Result := s.compareImm .w (imm.setWidth 32) dx

/-- CMPI.L (R264). -/
def execCmpiL (imm : Long) (dx : RegNo) (s : State) : Result := s.compareImm .l imm dx

/-- NEG.L (R265). -/
def execNeg (r : RegNo) (s : State) : Result :=
  let v := s.d r
  s.finishD r (0 - v) (subFlags .l 0 v (0 - v) false s.ccr)

/-- NEGX.L (R266). -/
def execNegx (r : RegNo) (s : State) : Result :=
  let v := s.d r
  let n := 0 - v - s.xBit
  s.finishD r n (subFlags .l 0 v n true s.ccr)

/-- EXT.W: bits 31:16 are kept (R267). -/
def execExtW (r : RegNo) (s : State) : Result :=
  let v := zext16 (sext8 (s.d r))
  ((s.writeD r .w v).setCcr (logicFlags .w v s.ccr)).commit

/-- EXT.L (R268). -/
def execExtL (r : RegNo) (s : State) : Result :=
  let v := sext16 (s.d r)
  s.finishD r v (logicFlags .l v s.ccr)

/-- EXTB.L (R269). -/
def execExtbL (r : RegNo) (s : State) : Result :=
  let v := sext8 (s.d r)
  s.finishD r v (logicFlags .l v s.ccr)

/-- TST.B (R270). -/
def execTstB (ea : Ea) (s : State) : Result := s.test .b ea

/-- TST.W (R270). -/
def execTstW (ea : Ea) (s : State) : Result := s.test .w ea

/-- TST.L (R270). -/
def execTstL (ea : Ea) (s : State) : Result := s.test .l ea

/-- SATS.L: on overflow the register saturates away from its sign (R271). -/
def execSats (r : RegNo) (s : State) : Result :=
  let d := s.d r
  let v : Long := if s.ccr.v then (if d.getLsbD 31 then 0x7FFFFFFF else 0x80000000) else d
  s.finishD r v (logicFlags .l v s.ccr)

end Sys2Proof.Machine
end

