-- ==== Sys2Proof/Machine/LogicShiftBit.lean ====
section
/-! DEFINITION. Logic, shifts, single-bit operations, BITREV, BYTEREV, FF1, TAS (44_logic_shift_bit.md
R320-R342). -/

namespace Sys2Proof.Machine

/-- A logical operation of a source into a data register (R320, R323). -/
def State.logicToD (s : State) (f : Long → Long → Long) (src : Ea) (x : RegNo) : Result :=
  s.withSource .l src fun v s1 => s1.finishD x (f (s1.d x) v) (logicFlags .l (f (s1.d x) v) s1.ccr)

/-- A logical operation of a data register into a destination, read and written at one place (R321, R324,
R326). -/
def State.logicToEa (s : State) (f : Long → Long → Long) (y : RegNo) (dst : Ea) : Result :=
  s.withTarget .l dst fun loc d s1 =>
    s1.finish loc .l (f d (s1.d y)) (logicFlags .l (f d (s1.d y)) s1.ccr)

/-- A logical operation of an immediate into a data register (R322, R325, R327). -/
def State.logicImm (s : State) (f : Long → Long → Long) (imm : Long) (x : RegNo) : Result :=
  s.finishD x (f (s.d x) imm) (logicFlags .l (f (s.d x) imm) s.ccr)

/-- AND.L `<ea>,Dx` (R320). -/
def execAndEaDn (src : Ea) (rx : RegNo) (s : State) : Result := s.logicToD (· &&& ·) src rx

/-- AND.L `Dy,<ea>` (R321). -/
def execAndDnEa (ry : RegNo) (dst : Ea) (s : State) : Result := s.logicToEa (· &&& ·) ry dst

/-- ANDI.L (R322). -/
def execAndi (imm : Long) (dx : RegNo) (s : State) : Result := s.logicImm (· &&& ·) imm dx

/-- OR.L `<ea>,Dx` (R323). -/
def execOrEaDn (src : Ea) (rx : RegNo) (s : State) : Result := s.logicToD (· ||| ·) src rx

/-- OR.L `Dy,<ea>` (R324). -/
def execOrDnEa (ry : RegNo) (dst : Ea) (s : State) : Result := s.logicToEa (· ||| ·) ry dst

/-- ORI.L (R325). -/
def execOri (imm : Long) (dx : RegNo) (s : State) : Result := s.logicImm (· ||| ·) imm dx

/-- EOR.L (R326). -/
def execEor (ry : RegNo) (dst : Ea) (s : State) : Result := s.logicToEa (· ^^^ ·) ry dst

/-- EORI.L (R327). -/
def execEori (imm : Long) (dx : RegNo) (s : State) : Result := s.logicImm (· ^^^ ·) imm dx

/-- NOT.L (R328). -/
def execNotL (r : RegNo) (s : State) : Result :=
  s.finishD r (~~~s.d r) (logicFlags .l (~~~s.d r) s.ccr)

/-- A shift's result and its carry for a count that is not 0 (R330 to R333). -/
structure Shifted where
  value : Long
  carry : Bool
  deriving DecidableEq, Repr

/-- Arithmetic shift left (R330). -/
def shiftArithLeft (d : Long) (c : Nat) : Shifted where
  value := if 32 ≤ c then 0 else d <<< c
  carry := if c ≤ 32 then d.getLsbD (32 - c) else false

/-- Arithmetic shift right (R331). -/
def shiftArithRight (d : Long) (c : Nat) : Shifted where
  value := if 32 ≤ c then (if d.getLsbD 31 then 0xFFFFFFFF else 0) else d.sshiftRight c
  carry := if c ≤ 32 then d.getLsbD (c - 1) else d.getLsbD 31

/-- Logical shift left (R332). -/
def shiftLogicLeft (d : Long) (c : Nat) : Shifted where
  value := if 32 ≤ c then 0 else d <<< c
  carry := if c ≤ 32 then d.getLsbD (32 - c) else false

/-- Logical shift right (R333). -/
def shiftLogicRight (d : Long) (c : Nat) : Shifted where
  value := if 32 ≤ c then 0 else d >>> c
  carry := if c ≤ 32 then d.getLsbD (c - 1) else false

/-- The flags of a shift: a count of 0 clears C and keeps X, any other copies the carry to both; V is 0
(R330 to R333). -/
def shiftFlags (c : Nat) (r : Shifted) (old : Ccr) : Ccr where
  x := if c = 0 then old.x else r.carry
  n := r.value.getLsbD 31
  z := r.value == 0
  v := false
  c := if c = 0 then false else r.carry

/-- A shift of a data register by a count; a count of 0 leaves the register (R330 to R333). -/
def State.shift (s : State) (f : Long → Nat → Shifted) (c : Nat) (x : RegNo) : Result :=
  let r := if c = 0 then { value := s.d x, carry := false } else f (s.d x) c
  s.finishD x r.value (shiftFlags c r s.ccr)

/-- ASL.L, immediate count (R330). -/
def execAslImm (count : BitVec 3) (dx : RegNo) (s : State) : Result :=
  s.shift shiftArithLeft (quickValue count) dx

/-- ASL.L, count in Dy (R330). -/
def execAslReg (dy dx : RegNo) (s : State) : Result := s.shift shiftArithLeft (shiftCount (s.d dy)) dx

/-- ASR.L, immediate count (R331). -/
def execAsrImm (count : BitVec 3) (dx : RegNo) (s : State) : Result :=
  s.shift shiftArithRight (quickValue count) dx

/-- ASR.L, count in Dy (R331). -/
def execAsrReg (dy dx : RegNo) (s : State) : Result := s.shift shiftArithRight (shiftCount (s.d dy)) dx

/-- LSL.L, immediate count (R332). -/
def execLslImm (count : BitVec 3) (dx : RegNo) (s : State) : Result :=
  s.shift shiftLogicLeft (quickValue count) dx

/-- LSL.L, count in Dy (R332). -/
def execLslReg (dy dx : RegNo) (s : State) : Result := s.shift shiftLogicLeft (shiftCount (s.d dy)) dx

/-- LSR.L, immediate count (R333). -/
def execLsrImm (count : BitVec 3) (dx : RegNo) (s : State) : Result :=
  s.shift shiftLogicRight (quickValue count) dx

/-- LSR.L, count in Dy (R333). -/
def execLsrReg (dy dx : RegNo) (s : State) : Result := s.shift shiftLogicRight (shiftCount (s.d dy)) dx

/-- The four bit operations (R334). -/
inductive BitOp where
  | test | change | clear | set
  deriving DecidableEq, Repr

/-- `v` with the operation done on bit `b` (R334). -/
def BitOp.apply (op : BitOp) (v : Long) (b : Nat) : Long :=
  match op with
  | .test => v
  | .change => v ^^^ (1#32 <<< b)
  | .clear => v &&& ~~~(1#32 <<< b)
  | .set => v ||| (1#32 <<< b)

/-- A bit operation on a data register: 32 bits wide, the bit number modulo 32 (R334). -/
def State.bitOpD (s : State) (op : BitOp) (n : Nat) (x : RegNo) : Result :=
  s.finishD x (op.apply (s.d x) (n % 32)) (zeroFlag (!(s.d x).getLsbD (n % 32)) s.ccr)

/-- The bit routine with its bit number: on Dx a long word modulo 32, elsewhere a byte modulo 8, which is
written back except by BTST; Z is the only flag (R334). -/
def State.bitOp (s : State) (op : BitOp) (n : Nat) : Ea → Result
  | .dn x => s.bitOpD op n x
  | dst => s.withTarget .b dst fun loc v s1 =>
    let f := zeroFlag (!v.getLsbD (n % 8)) s1.ccr
    if op = .test then (s1.setCcr f).commit else s1.finish loc .b (op.apply v (n % 8)) f

/-- BTST, bit number in Dn (R335). -/
def execBtstReg (ry : RegNo) (dst : Ea) (s : State) : Result := s.bitOp .test (s.d ry).toNat dst

/-- BTST, bit number immediate (R335). -/
def execBtstImm (n : Byte) (dst : Ea) (s : State) : Result := s.bitOp .test n.toNat dst

/-- BCHG, bit number in Dn (R336). -/
def execBchgReg (ry : RegNo) (dst : Ea) (s : State) : Result := s.bitOp .change (s.d ry).toNat dst

/-- BCHG, bit number immediate (R336). -/
def execBchgImm (n : Byte) (dst : Ea) (s : State) : Result := s.bitOp .change n.toNat dst

/-- BCLR, bit number in Dn (R337). -/
def execBclrReg (ry : RegNo) (dst : Ea) (s : State) : Result := s.bitOp .clear (s.d ry).toNat dst

/-- BCLR, bit number immediate (R337). -/
def execBclrImm (n : Byte) (dst : Ea) (s : State) : Result := s.bitOp .clear n.toNat dst

/-- BSET, bit number in Dn (R338). -/
def execBsetReg (ry : RegNo) (dst : Ea) (s : State) : Result := s.bitOp .set (s.d ry).toNat dst

/-- BSET, bit number immediate (R338). -/
def execBsetImm (n : Byte) (dst : Ea) (s : State) : Result := s.bitOp .set n.toNat dst

/-- BITREV: bit i moves to bit 31 - i; no flags (R339). -/
def execBitrev (r : RegNo) (s : State) : Result := (s.setD r (s.d r).reverse).commit

/-- The four bytes in the other order (R340). -/
def reverseBytes (v : Long) : Long :=
  v.extractLsb' 0 8 ++ v.extractLsb' 8 8 ++ v.extractLsb' 16 8 ++ v.extractLsb' 24 8

/-- BYTEREV; no flags (R340). -/
def execByterev (r : RegNo) (s : State) : Result := (s.setD r (reverseBytes (s.d r))).commit

/-- How many of the bits `n-1, …, 0` are 0 before the first 1, from the top (R341). -/
def leadingZeros : Nat → Long → Nat
  | 0, _ => 0
  | n + 1, v => if v.getLsbD n then 0 else leadingZeros n v + 1

/-- FF1: the count of leading zeros, 32 for 0; N and Z are the source's (R341). -/
def execFf1 (r : RegNo) (s : State) : Result :=
  let v := s.d r
  s.finishD r (BitVec.ofNat 32 (leadingZeros 32 v))
    { x := s.ccr.x, n := v.getLsbD 31, z := v == 0, v := false, c := false }

/-- TAS: the byte is tested, then written back with bit 7 set (R342). -/
def execTas (ea : Ea) (s : State) : Result :=
  s.withTarget .b ea fun loc v s1 =>
    s1.finish loc .b (v ||| 0x80)
      { x := s1.ccr.x, n := v.getLsbD 7, z := v == 0, v := false, c := false }

end Sys2Proof.Machine
end

