-- ==== Sys2Proof/Machine/MulDiv.lean ====
section
/-! DEFINITION. Multiply, divide and remainder (43_mul_div.md R300-R312). -/

namespace Sys2Proof.Machine

/-- A product into a data register: N and Z of the product, V and C 0 (R302-R305). -/
def State.finishProduct (s : State) (x : RegNo) (r : Long) : Result :=
  s.finishD x r { x := s.ccr.x, n := r.getLsbD 31, z := r == 0, v := false, c := false }

/-- Multiply: a source read at a size and the register, both made long words by `f` (R302-R305). -/
def State.multiply (s : State) (sz : Size) (f : Long → Long) (src : Ea) (x : RegNo) : Result :=
  s.withSource sz src fun v s1 => s1.finishProduct x (f (s1.d x) * f v)

/-- N and Z drawn, the other flags as given, X kept (43 section 3, R306 to R311). -/
def State.drawNZ (s : State) (v c : Bool) : State :=
  let (n, s1) := s.drawBit
  let (z, s2) := s1.drawBit
  s2.setCcr { x := s2.ccr.x, n := n, z := z, v := v, c := c }

/-- The flags of a divide by zero: N, Z and V drawn, C 0, X kept (43 section 3). -/
def State.drawNZV (s : State) : State :=
  let (n, s1) := s.drawBit
  let (z, s2) := s1.drawBit
  let (v, s3) := s2.drawBit
  s3.setCcr { x := s3.ccr.x, n := n, z := z, v := v, c := false }

/-- The address register of `(An)+` or `-(An)` after a divide by zero: the one before the instruction or
the one after resolution, by a draw (43 section 3; log 17). -/
def State.drawAuto (s before : State) : Ea → State
  | .postInc n | .preDec n => if s.drawBit.1 then s.drawBit.2.setA n (before.a n) else s.drawBit.2
  | _ => s

/-- Divide by zero, from the state after the divisor is read (43 section 3; 60 R440). -/
def State.divideByZero (s before : State) (src : Ea) : Result :=
  (s.drawNZV.drawAuto before src).raise .divideByZero

/-- Goes on with a divisor that is not 0 (43 section 3). -/
def State.withDivisor (s : State) (sz : Size) (src : Ea) (k : Long → State → Result) : Result :=
  s.withSource sz src fun v s1 => if v = 0 then s1.divideByZero s src else k v s1

/-- A quotient that does not fit: V 1, C 0, N and Z drawn, the register kept (R306, R307, R309). -/
def State.divideOverflow (s : State) : Result := (s.drawNZ true false).commit

/-- A remainder over a quotient into a data register (R306, R307). -/
def State.finishQuotientW (s : State) (x : RegNo) (rm q : Word) : Result :=
  s.finishD x (rm ++ q) { x := s.ccr.x, n := q.getLsbD 15, z := q == 0, v := false, c := false }

/-- A long quotient into a data register (R308, R309). -/
def State.finishQuotientL (s : State) (x : RegNo) (q : Long) : Result :=
  s.finishD x q { x := s.ccr.x, n := q.getLsbD 31, z := q == 0, v := false, c := false }

/-- The one signed long quotient that does not fit: -2^31 by -1 (R309, R311). -/
def signedOverflow (d v : Long) : Bool := d == 0x80000000 && v == 0xFFFFFFFF

/-- MULU.W (R302). -/
def execMuluW (src : Ea) (rx : RegNo) (s : State) : Result := s.multiply .w zext16 src rx

/-- MULS.W (R303). -/
def execMulsW (src : Ea) (rx : RegNo) (s : State) : Result := s.multiply .w sext16 src rx

/-- MULU.L (R304). -/
def execMuluL (src : Ea) (dx : RegNo) (s : State) : Result := s.multiply .l id src dx

/-- MULS.L: the signed product modulo 2^32 (R305). -/
def execMulsL (src : Ea) (dx : RegNo) (s : State) : Result :=
  s.withSource .l src fun v s1 => s1.finishProduct dx (BitVec.ofInt 32 ((s1.d dx).toInt * v.toInt))

/-- DIVU.W (R306). -/
def execDivuW (src : Ea) (rx : RegNo) (s : State) : Result :=
  s.withDivisor .w src fun v s1 =>
    let q := (s1.d rx).toNat / v.toNat
    if 0xFFFF < q then s1.divideOverflow
    else s1.finishQuotientW rx (BitVec.ofNat 16 ((s1.d rx).toNat % v.toNat)) (BitVec.ofNat 16 q)

/-- DIVS.W (R307). -/
def execDivsW (src : Ea) (rx : RegNo) (s : State) : Result :=
  s.withDivisor .w src fun v s1 =>
    let d := (s1.d rx).toInt
    let q := d.tdiv (sext16 v).toInt
    if q < -32768 ∨ 32767 < q then s1.divideOverflow
    else s1.finishQuotientW rx (BitVec.ofInt 16 (d - q * (sext16 v).toInt)) (BitVec.ofInt 16 q)

/-- DIVU.L (R308). -/
def execDivuL (src : Ea) (dx : RegNo) (s : State) : Result :=
  s.withDivisor .l src fun v s1 => s1.finishQuotientL dx (BitVec.ofNat 32 ((s1.d dx).toNat / v.toNat))

/-- DIVS.L (R309). -/
def execDivsL (src : Ea) (dx : RegNo) (s : State) : Result :=
  s.withDivisor .l src fun v s1 =>
    if signedOverflow (s1.d dx) v then s1.divideOverflow
    else s1.finishQuotientL dx (BitVec.ofInt 32 ((s1.d dx).toInt.tdiv v.toInt))

/-- REMU.L: the remainder into Dw, Dx kept, N and Z drawn (R310). -/
def execRemuL (src : Ea) (dw dx : RegNo) (s : State) : Result :=
  s.withDivisor .l src fun v s1 =>
    ((s1.setD dw (BitVec.ofNat 32 ((s1.d dx).toNat % v.toNat))).drawNZ false false).commit

/-- REMS.L: the remainder with the dividend's sign into Dw; for -2^31 by -1 Dw and V are drawn too (R311). -/
def execRemsL (src : Ea) (dw dx : RegNo) (s : State) : Result :=
  s.withDivisor .l src fun v s1 =>
    if signedOverflow (s1.d dx) v then
      (((s1.draw.2.setD dw s1.draw.1).drawNZV)).commit
    else
      let d := (s1.d dx).toInt
      ((s1.setD dw (BitVec.ofInt 32 (d - d.tdiv v.toInt * v.toInt))).drawNZ false false).commit

end Sys2Proof.Machine
end

