-- ==== Sys2Proof/Machine/ProgramControl.lean ====
section
/-! DEFINITION. Program control: Bcc, BRA, BSR, JMP, JSR, RTS, Scc, TPF, NOP, TRAP, ILLEGAL
(45_program_control.md R360-R371). -/

namespace Sys2Proof.Machine

/-- A conditional branch with its displacement (R361). -/
def State.branchIf (s : State) (cond : Cond) (disp : Long) : Result :=
  if s.ccr.holds cond then s.goto (s.branchTarget disp) else s.commit

/-- A branch to a subroutine: the address of the next instruction is pushed (R363). -/
def State.callTo (s : State) (target : Long) : Result :=
  withState (s.push s.cursor) fun s1 => s1.goto target

/-- Bcc.B (R361). -/
def execBccB (cond : Cond) (d8 : Byte) (s : State) : Result := s.branchIf cond (d8.signExtend 32)

/-- Bcc.W (R361). -/
def execBccW (cond : Cond) (d16 : Word) (s : State) : Result := s.branchIf cond (d16.signExtend 32)

/-- Bcc.L (R361). -/
def execBccL (cond : Cond) (d32 : Long) (s : State) : Result := s.branchIf cond d32

/-- BRA.B (R362). -/
def execBraB (d8 : Byte) (s : State) : Result := s.goto (s.branchTarget (d8.signExtend 32))

/-- BRA.W (R362). -/
def execBraW (d16 : Word) (s : State) : Result := s.goto (s.branchTarget (d16.signExtend 32))

/-- BRA.L (R362). -/
def execBraL (d32 : Long) (s : State) : Result := s.goto (s.branchTarget d32)

/-- BSR.B (R363). -/
def execBsrB (d8 : Byte) (s : State) : Result := s.callTo (s.branchTarget (d8.signExtend 32))

/-- BSR.W (R363). -/
def execBsrW (d16 : Word) (s : State) : Result := s.callTo (s.branchTarget (d16.signExtend 32))

/-- BSR.L (R363). -/
def execBsrL (d32 : Long) (s : State) : Result := s.callTo (s.branchTarget d32)

/-- JMP (R364). -/
def execJmp (ea : Ea) (s : State) : Result := s.withAddress .l ea fun a s1 => s1.goto a

/-- JSR: the address is computed before the push (R365). -/
def execJsr (ea : Ea) (s : State) : Result := s.withAddress .l ea fun a s1 => s1.callTo a

/-- RTS (R366). -/
def execRts (s : State) : Result := withValue s.pull fun v s1 => s1.goto v

/-- Scc: bits 31:8 are kept (R367). -/
def execScc (cond : Cond) (dx : RegNo) (s : State) : Result :=
  (s.writeD dx .b (if s.ccr.holds cond then 0xFF else 0)).commit

/-- TPF (R368). -/
def execTpf (s : State) : Result := s.commit

/-- TPF.W: the immediate is ignored (R368). -/
def execTpfW (_imm : Word) (s : State) : Result := s.commit

/-- TPF.L: the immediate is ignored (R368). -/
def execTpfL (_imm : Long) (s : State) : Result := s.commit

/-- NOP (R369). -/
def execNop (s : State) : Result := s.commit

/-- TRAP: the trap exception, with the next instruction's address stacked (R370). -/
def execTrap (v : BitVec 4) (s : State) : Result := s.raise (.trap v)

/-- ILLEGAL: the illegal-instruction exception (R371). -/
def execIllegal (s : State) : Result := s.raise .illegalInstruction

end Sys2Proof.Machine
end

