-- ==== Sys2Proof/Machine/System.lean ====
section
/-! DEFINITION. System and privileged instructions (46_system.md R390-R406). -/

namespace Sys2Proof.Machine

/-- MOVE from SR (R391). -/
def execMoveFromSr (r : RegNo) (s : State) : Result :=
  s.privileged (s.writeD r .w (s.special .sr)).commit

/-- MOVE to SR (R392). -/
def execMoveToSr (ea : Ea) (s : State) : Result :=
  s.privileged (s.withSource .w ea fun v s1 => (s1.setSpecial v .sr).commit)

/-- MOVE from CCR: SR[7:0], with bits 15:8 of the register cleared (R393). -/
def execMoveFromCcr (r : RegNo) (s : State) : Result :=
  (s.writeD r .w (s.special .ccr)).commit

/-- MOVE to CCR: bits 4:0 of a word-sized read (R394). -/
def execMoveToCcr (ea : Ea) (s : State) : Result :=
  s.withSource .w ea fun v s1 => (s1.setSpecial v .ccr).commit

/-- MOVE to USP (R395). -/
def execMoveToUsp (r : RegNo) (s : State) : Result := s.privileged (s.setSpecial (s.a r) .usp).commit

/-- MOVE from USP (R396). -/
def execMoveFromUsp (r : RegNo) (s : State) : Result := s.privileged (s.setA r (s.special .usp)).commit

/-- MOVEC: a code outside `CONTROL_REGS` is refused (R397). -/
def execMovec (ry : GReg) (code : BitVec 12) (s : State) : Result :=
  s.privileged
    (if code ∈ s.cfg.controlRegs then (s.setSpecial (s.reg ry) (.control code)).commit
     else s.refuse (.unknownControlRegister code))

/-- RTE (R398). -/
def execRte (s : State) : Result := s.privileged s.returnFromException

/-- STOP (R399). -/
def execStop (imm : Word) (s : State) : Result :=
  s.privileged { s.setSr imm with runState := .stopped }.commit

/-- HALT: privileged unless `USER_HALT` (R400). -/
def execHalt (s : State) : Result :=
  if s.cfg.userHalt then { s with runState := .halted }.commit
  else s.privileged { s with runState := .halted }.commit

/-- PULSE (R401). -/
def execPulse (s : State) : Result := s.commit

/-- STRLDSR: not simulated, whatever its second word (R402). -/
def execStrldsr (_second _imm : Word) (s : State) : Result :=
  s.privileged (s.refuse (.notSimulated "STRLDSR"))

/-- CPUSHL dc: not simulated (R403). -/
def execCpushlDc (_r : RegNo) (s : State) : Result := s.privileged (s.refuse (.notSimulated "CPUSHL"))

/-- CPUSHL ic: not simulated (R403). -/
def execCpushlIc (_r : RegNo) (s : State) : Result := s.privileged (s.refuse (.notSimulated "CPUSHL"))

/-- CPUSHL bc: not simulated (R403). -/
def execCpushlBc (_r : RegNo) (s : State) : Result := s.privileged (s.refuse (.notSimulated "CPUSHL"))

/-- INTOUCH: not simulated (R404). -/
def execIntouch (_r : RegNo) (s : State) : Result := s.privileged (s.refuse (.notSimulated "INTOUCH"))

/-- WDDATA.B: not simulated (R405). -/
def execWddataB (_ea : Ea) (s : State) : Result := s.refuse (.notSimulated "WDDATA")

/-- WDDATA.W: not simulated (R405). -/
def execWddataW (_ea : Ea) (s : State) : Result := s.refuse (.notSimulated "WDDATA")

/-- WDDATA.L: not simulated (R405). -/
def execWddataL (_ea : Ea) (s : State) : Result := s.refuse (.notSimulated "WDDATA")

/-- WDEBUG: not simulated (R406). -/
def execWdebug (_second : Word) (_ea : Ea) (s : State) : Result :=
  s.privileged (s.refuse (.notSimulated "WDEBUG"))

end Sys2Proof.Machine
end

