-- ==== Sys2Proof/Machine/Dispatch.lean ====
section
/-! DEFINITION. Execute: one arm per constructor of `Instr`, each a call of the instruction's meaning. -/

namespace Sys2Proof.Machine

def exec (i : Instr) (s : State) : Host.Outcome State Fault Refusal :=
  match i with
  | .moveB src dst => Sys2Proof.Machine.execMoveB src dst s
  | .moveW src dst => Sys2Proof.Machine.execMoveW src dst s
  | .moveL src dst => Sys2Proof.Machine.execMoveL src dst s
  | .moveaW src rx => Sys2Proof.Machine.execMoveaW src rx s
  | .moveaL src rx => Sys2Proof.Machine.execMoveaL src rx s
  | .moveq d8 dx => Sys2Proof.Machine.execMoveq d8 dx s
  | .mov3q q dst => Sys2Proof.Machine.execMov3q q dst s
  | .mvsB src rx => Sys2Proof.Machine.execMvsB src rx s
  | .mvsW src rx => Sys2Proof.Machine.execMvsW src rx s
  | .mvzB src rx => Sys2Proof.Machine.execMvzB src rx s
  | .mvzW src rx => Sys2Proof.Machine.execMvzW src rx s
  | .movemToMem mask dst => Sys2Proof.Machine.execMovemToMem mask dst s
  | .movemToRegs src mask => Sys2Proof.Machine.execMovemToRegs src mask s
  | .lea src rx => Sys2Proof.Machine.execLea src rx s
  | .pea ea => Sys2Proof.Machine.execPea ea s
  | .link ay d16 => Sys2Proof.Machine.execLink ay d16 s
  | .unlk r => Sys2Proof.Machine.execUnlk r s
  | .clrB ea => Sys2Proof.Machine.execClrB ea s
  | .clrW ea => Sys2Proof.Machine.execClrW ea s
  | .clrL ea => Sys2Proof.Machine.execClrL ea s
  | .swap r => Sys2Proof.Machine.execSwap r s
  | .addEaDn src rx => Sys2Proof.Machine.execAddEaDn src rx s
  | .addDnEa ry dst => Sys2Proof.Machine.execAddDnEa ry dst s
  | .adda src rx => Sys2Proof.Machine.execAdda src rx s
  | .addi imm dx => Sys2Proof.Machine.execAddi imm dx s
  | .addq q dst => Sys2Proof.Machine.execAddq q dst s
  | .addx dy dx => Sys2Proof.Machine.execAddx dy dx s
  | .subEaDn src rx => Sys2Proof.Machine.execSubEaDn src rx s
  | .subDnEa ry dst => Sys2Proof.Machine.execSubDnEa ry dst s
  | .suba src rx => Sys2Proof.Machine.execSuba src rx s
  | .subi imm dx => Sys2Proof.Machine.execSubi imm dx s
  | .subq q dst => Sys2Proof.Machine.execSubq q dst s
  | .subx dy dx => Sys2Proof.Machine.execSubx dy dx s
  | .cmpB src rx => Sys2Proof.Machine.execCmpB src rx s
  | .cmpW src rx => Sys2Proof.Machine.execCmpW src rx s
  | .cmpL src rx => Sys2Proof.Machine.execCmpL src rx s
  | .cmpaW src rx => Sys2Proof.Machine.execCmpaW src rx s
  | .cmpaL src rx => Sys2Proof.Machine.execCmpaL src rx s
  | .cmpiB imm dx => Sys2Proof.Machine.execCmpiB imm dx s
  | .cmpiW imm dx => Sys2Proof.Machine.execCmpiW imm dx s
  | .cmpiL imm dx => Sys2Proof.Machine.execCmpiL imm dx s
  | .neg r => Sys2Proof.Machine.execNeg r s
  | .negx r => Sys2Proof.Machine.execNegx r s
  | .extW r => Sys2Proof.Machine.execExtW r s
  | .extL r => Sys2Proof.Machine.execExtL r s
  | .extbL r => Sys2Proof.Machine.execExtbL r s
  | .tstB ea => Sys2Proof.Machine.execTstB ea s
  | .tstW ea => Sys2Proof.Machine.execTstW ea s
  | .tstL ea => Sys2Proof.Machine.execTstL ea s
  | .sats r => Sys2Proof.Machine.execSats r s
  | .muluW src rx => Sys2Proof.Machine.execMuluW src rx s
  | .mulsW src rx => Sys2Proof.Machine.execMulsW src rx s
  | .muluL src dx => Sys2Proof.Machine.execMuluL src dx s
  | .mulsL src dx => Sys2Proof.Machine.execMulsL src dx s
  | .divuW src rx => Sys2Proof.Machine.execDivuW src rx s
  | .divsW src rx => Sys2Proof.Machine.execDivsW src rx s
  | .divuL src dx => Sys2Proof.Machine.execDivuL src dx s
  | .divsL src dx => Sys2Proof.Machine.execDivsL src dx s
  | .remuL src dw dx => Sys2Proof.Machine.execRemuL src dw dx s
  | .remsL src dw dx => Sys2Proof.Machine.execRemsL src dw dx s
  | .andEaDn src rx => Sys2Proof.Machine.execAndEaDn src rx s
  | .andDnEa ry dst => Sys2Proof.Machine.execAndDnEa ry dst s
  | .andi imm dx => Sys2Proof.Machine.execAndi imm dx s
  | .orEaDn src rx => Sys2Proof.Machine.execOrEaDn src rx s
  | .orDnEa ry dst => Sys2Proof.Machine.execOrDnEa ry dst s
  | .ori imm dx => Sys2Proof.Machine.execOri imm dx s
  | .eor ry dst => Sys2Proof.Machine.execEor ry dst s
  | .eori imm dx => Sys2Proof.Machine.execEori imm dx s
  | .notL r => Sys2Proof.Machine.execNotL r s
  | .aslImm count dx => Sys2Proof.Machine.execAslImm count dx s
  | .aslReg dy dx => Sys2Proof.Machine.execAslReg dy dx s
  | .asrImm count dx => Sys2Proof.Machine.execAsrImm count dx s
  | .asrReg dy dx => Sys2Proof.Machine.execAsrReg dy dx s
  | .lslImm count dx => Sys2Proof.Machine.execLslImm count dx s
  | .lslReg dy dx => Sys2Proof.Machine.execLslReg dy dx s
  | .lsrImm count dx => Sys2Proof.Machine.execLsrImm count dx s
  | .lsrReg dy dx => Sys2Proof.Machine.execLsrReg dy dx s
  | .btstReg ry dst => Sys2Proof.Machine.execBtstReg ry dst s
  | .btstImm n dst => Sys2Proof.Machine.execBtstImm n dst s
  | .bchgReg ry dst => Sys2Proof.Machine.execBchgReg ry dst s
  | .bchgImm n dst => Sys2Proof.Machine.execBchgImm n dst s
  | .bclrReg ry dst => Sys2Proof.Machine.execBclrReg ry dst s
  | .bclrImm n dst => Sys2Proof.Machine.execBclrImm n dst s
  | .bsetReg ry dst => Sys2Proof.Machine.execBsetReg ry dst s
  | .bsetImm n dst => Sys2Proof.Machine.execBsetImm n dst s
  | .bitrev r => Sys2Proof.Machine.execBitrev r s
  | .byterev r => Sys2Proof.Machine.execByterev r s
  | .ff1 r => Sys2Proof.Machine.execFf1 r s
  | .tas ea => Sys2Proof.Machine.execTas ea s
  | .bccB cond d8 => Sys2Proof.Machine.execBccB cond d8 s
  | .bccW cond d16 => Sys2Proof.Machine.execBccW cond d16 s
  | .bccL cond d32 => Sys2Proof.Machine.execBccL cond d32 s
  | .braB d8 => Sys2Proof.Machine.execBraB d8 s
  | .braW d16 => Sys2Proof.Machine.execBraW d16 s
  | .braL d32 => Sys2Proof.Machine.execBraL d32 s
  | .bsrB d8 => Sys2Proof.Machine.execBsrB d8 s
  | .bsrW d16 => Sys2Proof.Machine.execBsrW d16 s
  | .bsrL d32 => Sys2Proof.Machine.execBsrL d32 s
  | .jmp ea => Sys2Proof.Machine.execJmp ea s
  | .jsr ea => Sys2Proof.Machine.execJsr ea s
  | .rts => Sys2Proof.Machine.execRts s
  | .scc cond dx => Sys2Proof.Machine.execScc cond dx s
  | .tpf => Sys2Proof.Machine.execTpf s
  | .tpfW imm => Sys2Proof.Machine.execTpfW imm s
  | .tpfL imm => Sys2Proof.Machine.execTpfL imm s
  | .nop => Sys2Proof.Machine.execNop s
  | .trap v => Sys2Proof.Machine.execTrap v s
  | .illegal => Sys2Proof.Machine.execIllegal s
  | .moveFromSr r => Sys2Proof.Machine.execMoveFromSr r s
  | .moveToSr ea => Sys2Proof.Machine.execMoveToSr ea s
  | .moveFromCcr r => Sys2Proof.Machine.execMoveFromCcr r s
  | .moveToCcr ea => Sys2Proof.Machine.execMoveToCcr ea s
  | .moveToUsp r => Sys2Proof.Machine.execMoveToUsp r s
  | .moveFromUsp r => Sys2Proof.Machine.execMoveFromUsp r s
  | .movec ry code => Sys2Proof.Machine.execMovec ry code s
  | .rte => Sys2Proof.Machine.execRte s
  | .stop imm => Sys2Proof.Machine.execStop imm s
  | .halt => Sys2Proof.Machine.execHalt s
  | .pulse => Sys2Proof.Machine.execPulse s
  | .strldsr second imm => Sys2Proof.Machine.execStrldsr second imm s
  | .cpushlDc r => Sys2Proof.Machine.execCpushlDc r s
  | .cpushlIc r => Sys2Proof.Machine.execCpushlIc r s
  | .cpushlBc r => Sys2Proof.Machine.execCpushlBc r s
  | .intouch r => Sys2Proof.Machine.execIntouch r s
  | .wddataB ea => Sys2Proof.Machine.execWddataB ea s
  | .wddataW ea => Sys2Proof.Machine.execWddataW ea s
  | .wddataL ea => Sys2Proof.Machine.execWddataL ea s
  | .wdebug second ea => Sys2Proof.Machine.execWdebug second ea s

end Sys2Proof.Machine
end

