-- ==== Sys2Proof/Machine/Registry.lean ====
section
/-! DEFINITION. The registry (30_encoding.md R139-R146): every row of spec/opcode_table.json, the
addressing-mode sets (R151) and the matching of an opcode word. -/

namespace Sys2Proof

/-- The addressing modes by tag (30_encoding.md R133); one for every immediate. -/
inductive Mode where
  | dn | an | ind | postInc | preDec | disp | index | absW | absL | pcDisp | pcIndex | imm
  deriving DecidableEq, Repr

/-- The mode of a 6-bit EA field, none for mode 7 with register 5, 6 or 7 (R133). -/
def Mode.ofField (f : BitVec 6) : Option Mode :=
  match (f.extractLsb' 3 3).toNat, (f.extractLsb' 0 3).toNat with
  | 0, _ => some .dn
  | 1, _ => some .an
  | 2, _ => some .ind
  | 3, _ => some .postInc
  | 4, _ => some .preDec
  | 5, _ => some .disp
  | 6, _ => some .index
  | 7, 0 => some .absW
  | 7, 1 => some .absL
  | 7, 2 => some .pcDisp
  | 7, 3 => some .pcIndex
  | 7, 4 => some .imm
  | _, _ => none

/-- How many extension words the mode takes for an operand of the size (R133). -/
def Mode.extWords : Mode → Size → Nat
  | .dn, _ | .an, _ | .ind, _ | .postInc, _ | .preDec, _ => 0
  | .disp, _ | .index, _ | .absW, _ | .pcDisp, _ | .pcIndex, _ => 1
  | .absL, _ => 2
  | .imm, .l => 2
  | .imm, _ => 1

/-- The named sets of legal modes (R151). -/
inductive ModeSet where
  | all | data | memAlt | dataAlt | alt | control | restr | bdyn | movemEa | srSrc | wdEa
  deriving DecidableEq, Repr

/-- Membership in a named set (R151). -/
def ModeSet.has : ModeSet → Mode → Bool
  | .all, _ => true
  | .data, m => m != .an
  | .memAlt, .ind | .memAlt, .postInc | .memAlt, .preDec | .memAlt, .disp => true
  | .memAlt, .index | .memAlt, .absW | .memAlt, .absL => true
  | .memAlt, _ => false
  | .dataAlt, .pcDisp | .dataAlt, .pcIndex | .dataAlt, .imm | .dataAlt, .an => false
  | .dataAlt, _ => true
  | .alt, .pcDisp | .alt, .pcIndex | .alt, .imm => false
  | .alt, _ => true
  | .control, .ind | .control, .disp | .control, .index | .control, .absW => true
  | .control, .absL | .control, .pcDisp | .control, .pcIndex => true
  | .control, _ => false
  | .restr, .dn | .restr, .ind | .restr, .postInc | .restr, .preDec | .restr, .disp => true
  | .restr, _ => false
  | .bdyn, m => m != .an && m != .imm
  | .movemEa, m => m == .ind || m == .disp
  | .srSrc, m => m == .dn || m == .imm
  | .wdEa, .ind | .wdEa, .disp | .wdEa, .index | .wdEa, .absW | .wdEa, .absL => true
  | .wdEa, _ => false

/-- The source and destination combinations a MOVE admits, the destination being in DATAALT
(41_data_movement.md R200). -/
def moveCombo (tier : Tier) (sz : Size) (src dst : Mode) : Bool :=
  match src with
  | .dn | .an | .ind | .postInc | .preDec => true
  | .disp | .pcDisp => dst == .dn || dst == .ind || dst == .postInc || dst == .preDec || dst == .disp
  | .index | .pcIndex | .absW | .absL =>
    dst == .dn || dst == .ind || dst == .postInc || dst == .preDec
  | .imm =>
    dst == .dn || dst == .ind || dst == .postInc || dst == .preDec ||
      (dst == .disp && sz != .l && decide (Tier.b.rank ≤ tier.rank))

/-- The relation a row asks of Dx (14:12) and Dw (2:0) in its extension word (R146). -/
inductive ExtRel where
  | any | same | differ
  deriving DecidableEq, Repr

/-- How a row of the MUL.L and DIV.L groups knows its extension word (R146; 43 R300, R301). -/
structure ExtSel where
  pat : Word
  mask : Word
  rel : ExtRel
  deriving DecidableEq, Repr

/-- Whether the extension word is one of the row's. -/
def ExtSel.fits (x : ExtSel) (e : Word) : Bool :=
  e &&& x.mask == x.pat &&
    match x.rel with
    | .any => true
    | .same => e.reg 12 == e.reg 0
    | .differ => e.reg 12 != e.reg 0

/-- How many instruction extension words a layout has, before those of its EAs (R135, R138). -/
def Form.extWords : Form → Nat
  | .maskEa | .eaMask | .regDisp | .immBReg | .immWReg | .mul | .div | .rem | .bitEa => 1
  | .condDisp16 | .disp16 | .word | .wordEa | .ctrl => 1
  | .immReg | .condDisp32 | .disp32 | .long | .wordWord => 2
  | .moveEa | .eaReg | .regEa | .quick8 | .quickEa | .shiftImm | .shiftReg | .ea => 0
  | .reg | .regReg => 0
  | .condDisp8 | .disp8 | .condReg | .fixed | .vector => 0

/-- An instruction definition (R139): one row of spec/opcode_table.json. `ea` is the legal set of the EA
field 5:0, `dst` that of F-MOVE's destination field, `eaSize` the size of an immediate there (R134). -/
structure Row where
  mnemonic : String
  alts : List String := []
  sizes : List Size := []
  pat : Word
  mask : Word
  exclude : List (Word × Word) := []
  form : Form
  ea : Option ModeSet := none
  dst : Option ModeSet := none
  eaSize : Size := .l
  isa : Tier := .a
  privileged : Bool := false
  controlFlow : Bool := false
  divide : Bool := false
  ext : Option ExtSel := none
  deriving DecidableEq, Repr

/-- The rows of spec/opcode_table.json. DESIGN CHOICE (log 26): the moves of 46 R391 to R396 have the long names
"MOVE from SR", "MOVE to SR" and so on of that table as their mnemonic, the one Decode gives and Encode takes (R148,
R155); the operand lines of those rules write `MOVE`, which is not a mnemonic of these rows here. -/
def Op.row : Op → Row
  | .moveB =>
    { mnemonic := "MOVE", sizes := [.b], pat := 0x1000, mask := 0xF000, form := .moveEa,
      ea := some .data, dst := some .dataAlt, eaSize := .b }
  | .moveW =>
    { mnemonic := "MOVE", sizes := [.w], pat := 0x3000, mask := 0xF000, form := .moveEa,
      ea := some .all, dst := some .dataAlt, eaSize := .w }
  | .moveL =>
    { mnemonic := "MOVE", sizes := [.l], pat := 0x2000, mask := 0xF000, form := .moveEa,
      ea := some .all, dst := some .dataAlt }
  | .moveaW =>
    { mnemonic := "MOVEA", sizes := [.w], pat := 0x3040, mask := 0xF1C0, form := .eaReg,
      ea := some .all, eaSize := .w }
  | .moveaL =>
    { mnemonic := "MOVEA", sizes := [.l], pat := 0x2040, mask := 0xF1C0, form := .eaReg,
      ea := some .all }
  | .moveq => { mnemonic := "MOVEQ", sizes := [.l], pat := 0x7000, mask := 0xF100, form := .quick8 }
  | .mov3q =>
    { mnemonic := "MOV3Q", sizes := [.l], pat := 0xA140, mask := 0xF1C0, form := .quickEa,
      ea := some .alt, isa := .b }
  | .mvsB =>
    { mnemonic := "MVS", sizes := [.b], pat := 0x7100, mask := 0xF1C0, form := .eaReg,
      ea := some .data, eaSize := .b, isa := .b }
  | .mvsW =>
    { mnemonic := "MVS", sizes := [.w], pat := 0x7140, mask := 0xF1C0, form := .eaReg,
      ea := some .all, eaSize := .w, isa := .b }
  | .mvzB =>
    { mnemonic := "MVZ", sizes := [.b], pat := 0x7180, mask := 0xF1C0, form := .eaReg,
      ea := some .data, eaSize := .b, isa := .b }
  | .mvzW =>
    { mnemonic := "MVZ", sizes := [.w], pat := 0x71C0, mask := 0xF1C0, form := .eaReg,
      ea := some .all, eaSize := .w, isa := .b }
  | .movemToMem =>
    { mnemonic := "MOVEM", sizes := [.l], pat := 0x48C0, mask := 0xFFC0, form := .maskEa,
      ea := some .movemEa }
  | .movemToRegs =>
    { mnemonic := "MOVEM", sizes := [.l], pat := 0x4CC0, mask := 0xFFC0, form := .eaMask,
      ea := some .movemEa }
  | .lea =>
    { mnemonic := "LEA", sizes := [.l], pat := 0x41C0, mask := 0xF1C0, form := .eaReg,
      ea := some .control }
  | .pea =>
    { mnemonic := "PEA", sizes := [.l], pat := 0x4840, mask := 0xFFC0, form := .ea,
      ea := some .control }
  | .link => { mnemonic := "LINK", sizes := [.w], pat := 0x4E50, mask := 0xFFF8, form := .regDisp }
  | .unlk => { mnemonic := "UNLK", pat := 0x4E58, mask := 0xFFF8, form := .reg }
  | .clrB =>
    { mnemonic := "CLR", sizes := [.b], pat := 0x4200, mask := 0xFFC0, form := .ea,
      ea := some .dataAlt, eaSize := .b }
  | .clrW =>
    { mnemonic := "CLR", sizes := [.w], pat := 0x4240, mask := 0xFFC0, form := .ea,
      ea := some .dataAlt, eaSize := .w }
  | .clrL =>
    { mnemonic := "CLR", sizes := [.l], pat := 0x4280, mask := 0xFFC0, form := .ea,
      ea := some .dataAlt }
  | .swap => { mnemonic := "SWAP", sizes := [.w], pat := 0x4840, mask := 0xFFF8, form := .reg }
  | .addEaDn =>
    { mnemonic := "ADD", sizes := [.l], pat := 0xD080, mask := 0xF1C0, form := .eaReg,
      ea := some .all }
  | .addDnEa =>
    { mnemonic := "ADD", sizes := [.l], pat := 0xD180, mask := 0xF1C0, form := .regEa,
      ea := some .memAlt }
  | .adda =>
    { mnemonic := "ADDA", sizes := [.l], pat := 0xD1C0, mask := 0xF1C0, form := .eaReg,
      ea := some .all }
  | .addi => { mnemonic := "ADDI", sizes := [.l], pat := 0x0680, mask := 0xFFF8, form := .immReg }
  | .addq =>
    { mnemonic := "ADDQ", sizes := [.l], pat := 0x5080, mask := 0xF1C0, form := .quickEa,
      ea := some .alt }
  | .addx => { mnemonic := "ADDX", sizes := [.l], pat := 0xD180, mask := 0xF1F8, form := .regReg }
  | .subEaDn =>
    { mnemonic := "SUB", sizes := [.l], pat := 0x9080, mask := 0xF1C0, form := .eaReg,
      ea := some .all }
  | .subDnEa =>
    { mnemonic := "SUB", sizes := [.l], pat := 0x9180, mask := 0xF1C0, form := .regEa,
      ea := some .memAlt }
  | .suba =>
    { mnemonic := "SUBA", sizes := [.l], pat := 0x91C0, mask := 0xF1C0, form := .eaReg,
      ea := some .all }
  | .subi => { mnemonic := "SUBI", sizes := [.l], pat := 0x0480, mask := 0xFFF8, form := .immReg }
  | .subq =>
    { mnemonic := "SUBQ", sizes := [.l], pat := 0x5180, mask := 0xF1C0, form := .quickEa,
      ea := some .alt }
  | .subx => { mnemonic := "SUBX", sizes := [.l], pat := 0x9180, mask := 0xF1F8, form := .regReg }
  | .cmpB =>
    { mnemonic := "CMP", sizes := [.b], pat := 0xB000, mask := 0xF1C0, form := .eaReg,
      ea := some .data, eaSize := .b, isa := .b }
  | .cmpW =>
    { mnemonic := "CMP", sizes := [.w], pat := 0xB040, mask := 0xF1C0, form := .eaReg,
      ea := some .all, eaSize := .w, isa := .b }
  | .cmpL =>
    { mnemonic := "CMP", sizes := [.l], pat := 0xB080, mask := 0xF1C0, form := .eaReg,
      ea := some .all }
  | .cmpaW =>
    { mnemonic := "CMPA", sizes := [.w], pat := 0xB0C0, mask := 0xF1C0, form := .eaReg,
      ea := some .all, eaSize := .w, isa := .b }
  | .cmpaL =>
    { mnemonic := "CMPA", sizes := [.l], pat := 0xB1C0, mask := 0xF1C0, form := .eaReg,
      ea := some .all }
  | .cmpiB =>
    { mnemonic := "CMPI", sizes := [.b], pat := 0x0C00, mask := 0xFFF8, form := .immBReg,
      isa := .b }
  | .cmpiW =>
    { mnemonic := "CMPI", sizes := [.w], pat := 0x0C40, mask := 0xFFF8, form := .immWReg,
      isa := .b }
  | .cmpiL => { mnemonic := "CMPI", sizes := [.l], pat := 0x0C80, mask := 0xFFF8, form := .immReg }
  | .neg => { mnemonic := "NEG", sizes := [.l], pat := 0x4480, mask := 0xFFF8, form := .reg }
  | .negx => { mnemonic := "NEGX", sizes := [.l], pat := 0x4080, mask := 0xFFF8, form := .reg }
  | .extW => { mnemonic := "EXT", sizes := [.w], pat := 0x4880, mask := 0xFFF8, form := .reg }
  | .extL => { mnemonic := "EXT", sizes := [.l], pat := 0x48C0, mask := 0xFFF8, form := .reg }
  | .extbL => { mnemonic := "EXTB", sizes := [.l], pat := 0x49C0, mask := 0xFFF8, form := .reg }
  | .tstB =>
    { mnemonic := "TST", sizes := [.b], pat := 0x4A00, mask := 0xFFC0, form := .ea,
      ea := some .data, eaSize := .b }
  | .tstW =>
    { mnemonic := "TST", sizes := [.w], pat := 0x4A40, mask := 0xFFC0, form := .ea,
      ea := some .all, eaSize := .w }
  | .tstL =>
    { mnemonic := "TST", sizes := [.l], pat := 0x4A80, mask := 0xFFC0, form := .ea,
      ea := some .all }
  | .sats =>
    { mnemonic := "SATS", sizes := [.l], pat := 0x4C80, mask := 0xFFF8, form := .reg, isa := .b }
  | .muluW =>
    { mnemonic := "MULU", sizes := [.w], pat := 0xC0C0, mask := 0xF1C0, form := .eaReg,
      ea := some .data, eaSize := .w }
  | .mulsW =>
    { mnemonic := "MULS", sizes := [.w], pat := 0xC1C0, mask := 0xF1C0, form := .eaReg,
      ea := some .data, eaSize := .w }
  | .muluL =>
    { mnemonic := "MULU", sizes := [.l], pat := 0x4C00, mask := 0xFFC0, form := .mul,
      ea := some .restr, ext := some { pat := 0x0000, mask := 0x8FFF, rel := .any } }
  | .mulsL =>
    { mnemonic := "MULS", sizes := [.l], pat := 0x4C00, mask := 0xFFC0, form := .mul,
      ea := some .restr, ext := some { pat := 0x0800, mask := 0x8FFF, rel := .any } }
  | .divuW =>
    { mnemonic := "DIVU", sizes := [.w], pat := 0x80C0, mask := 0xF1C0, form := .eaReg,
      ea := some .data, eaSize := .w, divide := true }
  | .divsW =>
    { mnemonic := "DIVS", sizes := [.w], pat := 0x81C0, mask := 0xF1C0, form := .eaReg,
      ea := some .data, eaSize := .w, divide := true }
  | .divuL =>
    { mnemonic := "DIVU", sizes := [.l], pat := 0x4C40, mask := 0xFFC0, form := .div,
      ea := some .restr, divide := true,
      ext := some { pat := 0x0000, mask := 0x8FF8, rel := .same } }
  | .divsL =>
    { mnemonic := "DIVS", sizes := [.l], pat := 0x4C40, mask := 0xFFC0, form := .div,
      ea := some .restr, divide := true,
      ext := some { pat := 0x0800, mask := 0x8FF8, rel := .same } }
  | .remuL =>
    { mnemonic := "REMU", sizes := [.l], pat := 0x4C40, mask := 0xFFC0, form := .rem,
      ea := some .restr, divide := true,
      ext := some { pat := 0x0000, mask := 0x8FF8, rel := .differ } }
  | .remsL =>
    { mnemonic := "REMS", sizes := [.l], pat := 0x4C40, mask := 0xFFC0, form := .rem,
      ea := some .restr, divide := true,
      ext := some { pat := 0x0800, mask := 0x8FF8, rel := .differ } }
  | .andEaDn =>
    { mnemonic := "AND", sizes := [.l], pat := 0xC080, mask := 0xF1C0, form := .eaReg,
      ea := some .data }
  | .andDnEa =>
    { mnemonic := "AND", sizes := [.l], pat := 0xC180, mask := 0xF1C0, form := .regEa,
      ea := some .memAlt }
  | .andi => { mnemonic := "ANDI", sizes := [.l], pat := 0x0280, mask := 0xFFF8, form := .immReg }
  | .orEaDn =>
    { mnemonic := "OR", sizes := [.l], pat := 0x8080, mask := 0xF1C0, form := .eaReg,
      ea := some .data }
  | .orDnEa =>
    { mnemonic := "OR", sizes := [.l], pat := 0x8180, mask := 0xF1C0, form := .regEa,
      ea := some .memAlt }
  | .ori => { mnemonic := "ORI", sizes := [.l], pat := 0x0080, mask := 0xFFF8, form := .immReg }
  | .eor =>
    { mnemonic := "EOR", sizes := [.l], pat := 0xB180, mask := 0xF1C0, form := .regEa,
      ea := some .dataAlt }
  | .eori => { mnemonic := "EORI", sizes := [.l], pat := 0x0A80, mask := 0xFFF8, form := .immReg }
  | .notL => { mnemonic := "NOT", sizes := [.l], pat := 0x4680, mask := 0xFFF8, form := .reg }
  | .aslImm =>
    { mnemonic := "ASL", sizes := [.l], pat := 0xE180, mask := 0xF1F8, form := .shiftImm }
  | .aslReg =>
    { mnemonic := "ASL", sizes := [.l], pat := 0xE1A0, mask := 0xF1F8, form := .shiftReg }
  | .asrImm =>
    { mnemonic := "ASR", sizes := [.l], pat := 0xE080, mask := 0xF1F8, form := .shiftImm }
  | .asrReg =>
    { mnemonic := "ASR", sizes := [.l], pat := 0xE0A0, mask := 0xF1F8, form := .shiftReg }
  | .lslImm =>
    { mnemonic := "LSL", sizes := [.l], pat := 0xE188, mask := 0xF1F8, form := .shiftImm }
  | .lslReg =>
    { mnemonic := "LSL", sizes := [.l], pat := 0xE1A8, mask := 0xF1F8, form := .shiftReg }
  | .lsrImm =>
    { mnemonic := "LSR", sizes := [.l], pat := 0xE088, mask := 0xF1F8, form := .shiftImm }
  | .lsrReg =>
    { mnemonic := "LSR", sizes := [.l], pat := 0xE0A8, mask := 0xF1F8, form := .shiftReg }
  | .btstReg =>
    { mnemonic := "BTST", sizes := [.b, .l], pat := 0x0100, mask := 0xF1C0, form := .regEa,
      ea := some .bdyn, eaSize := .b }
  | .btstImm =>
    { mnemonic := "BTST", sizes := [.b, .l], pat := 0x0800, mask := 0xFFC0, form := .bitEa,
      ea := some .restr, eaSize := .b }
  | .bchgReg =>
    { mnemonic := "BCHG", sizes := [.b, .l], pat := 0x0140, mask := 0xF1C0, form := .regEa,
      ea := some .dataAlt, eaSize := .b }
  | .bchgImm =>
    { mnemonic := "BCHG", sizes := [.b, .l], pat := 0x0840, mask := 0xFFC0, form := .bitEa,
      ea := some .restr, eaSize := .b }
  | .bclrReg =>
    { mnemonic := "BCLR", sizes := [.b, .l], pat := 0x0180, mask := 0xF1C0, form := .regEa,
      ea := some .dataAlt, eaSize := .b }
  | .bclrImm =>
    { mnemonic := "BCLR", sizes := [.b, .l], pat := 0x0880, mask := 0xFFC0, form := .bitEa,
      ea := some .restr, eaSize := .b }
  | .bsetReg =>
    { mnemonic := "BSET", sizes := [.b, .l], pat := 0x01C0, mask := 0xF1C0, form := .regEa,
      ea := some .dataAlt, eaSize := .b }
  | .bsetImm =>
    { mnemonic := "BSET", sizes := [.b, .l], pat := 0x08C0, mask := 0xFFC0, form := .bitEa,
      ea := some .restr, eaSize := .b }
  | .bitrev =>
    { mnemonic := "BITREV", sizes := [.l], pat := 0x00C0, mask := 0xFFF8, form := .reg, isa := .c }
  | .byterev =>
    { mnemonic := "BYTEREV", sizes := [.l], pat := 0x02C0, mask := 0xFFF8, form := .reg, isa := .c }
  | .ff1 =>
    { mnemonic := "FF1", sizes := [.l], pat := 0x04C0, mask := 0xFFF8, form := .reg, isa := .c }
  | .tas =>
    { mnemonic := "TAS", sizes := [.b], pat := 0x4AC0, mask := 0xFFC0, form := .ea,
      ea := some .memAlt, eaSize := .b, isa := .b }
  | .bccB =>
    { mnemonic := "Bcc", sizes := [.b], pat := 0x6000, mask := 0xF000, form := .condDisp8,
      exclude := [(0x6000, 0xFE00), (0x6000, 0xF0FF), (0x60FF, 0xF0FF)], controlFlow := true }
  | .bccW =>
    { mnemonic := "Bcc", sizes := [.w], pat := 0x6000, mask := 0xF0FF, form := .condDisp16,
      exclude := [(0x6000, 0xFE00)], controlFlow := true }
  | .bccL =>
    { mnemonic := "Bcc", sizes := [.l], pat := 0x60FF, mask := 0xF0FF, form := .condDisp32,
      exclude := [(0x6000, 0xFE00)], isa := .b, controlFlow := true }
  | .braB =>
    { mnemonic := "BRA", sizes := [.b], pat := 0x6000, mask := 0xFF00, form := .disp8,
      exclude := [(0x6000, 0xFFFF), (0x60FF, 0xFFFF)], controlFlow := true }
  | .braW =>
    { mnemonic := "BRA", sizes := [.w], pat := 0x6000, mask := 0xFFFF, form := .disp16,
      controlFlow := true }
  | .braL =>
    { mnemonic := "BRA", sizes := [.l], pat := 0x60FF, mask := 0xFFFF, form := .disp32, isa := .b,
      controlFlow := true }
  | .bsrB =>
    { mnemonic := "BSR", sizes := [.b], pat := 0x6100, mask := 0xFF00, form := .disp8,
      exclude := [(0x6100, 0xFFFF), (0x61FF, 0xFFFF)], controlFlow := true }
  | .bsrW =>
    { mnemonic := "BSR", sizes := [.w], pat := 0x6100, mask := 0xFFFF, form := .disp16,
      controlFlow := true }
  | .bsrL =>
    { mnemonic := "BSR", sizes := [.l], pat := 0x61FF, mask := 0xFFFF, form := .disp32, isa := .b,
      controlFlow := true }
  | .jmp =>
    { mnemonic := "JMP", pat := 0x4EC0, mask := 0xFFC0, form := .ea, ea := some .control,
      controlFlow := true }
  | .jsr =>
    { mnemonic := "JSR", pat := 0x4E80, mask := 0xFFC0, form := .ea, ea := some .control,
      controlFlow := true }
  | .rts =>
    { mnemonic := "RTS", pat := 0x4E75, mask := 0xFFFF, form := .fixed, controlFlow := true }
  | .scc => { mnemonic := "Scc", sizes := [.b], pat := 0x50C0, mask := 0xF0F8, form := .condReg }
  | .tpf => { mnemonic := "TPF", alts := ["TRAPF"], pat := 0x51FC, mask := 0xFFFF, form := .fixed }
  | .tpfW =>
    { mnemonic := "TPF", alts := ["TRAPF"], sizes := [.w], pat := 0x51FA, mask := 0xFFFF,
      form := .word }
  | .tpfL =>
    { mnemonic := "TPF", alts := ["TRAPF"], sizes := [.l], pat := 0x51FB, mask := 0xFFFF,
      form := .long }
  | .nop => { mnemonic := "NOP", pat := 0x4E71, mask := 0xFFFF, form := .fixed }
  | .trap =>
    { mnemonic := "TRAP", pat := 0x4E40, mask := 0xFFF0, form := .vector, controlFlow := true }
  | .illegal => { mnemonic := "ILLEGAL", pat := 0x4AFC, mask := 0xFFFF, form := .fixed }
  | .moveFromSr =>
    { mnemonic := "MOVE from SR", sizes := [.w], pat := 0x40C0, mask := 0xFFF8, form := .reg,
      privileged := true }
  | .moveToSr =>
    { mnemonic := "MOVE to SR", sizes := [.w], pat := 0x46C0, mask := 0xFFC0, form := .ea,
      ea := some .srSrc, eaSize := .w, privileged := true }
  | .moveFromCcr =>
    { mnemonic := "MOVE from CCR", sizes := [.w], pat := 0x42C0, mask := 0xFFF8, form := .reg }
  | .moveToCcr =>
    { mnemonic := "MOVE to CCR", sizes := [.b], pat := 0x44C0, mask := 0xFFC0, form := .ea,
      ea := some .srSrc, eaSize := .w }
  | .moveToUsp =>
    { mnemonic := "MOVE to USP", sizes := [.l], pat := 0x4E60, mask := 0xFFF8, form := .reg,
      isa := .b, privileged := true }
  | .moveFromUsp =>
    { mnemonic := "MOVE from USP", sizes := [.l], pat := 0x4E68, mask := 0xFFF8, form := .reg,
      isa := .b, privileged := true }
  | .movec =>
    { mnemonic := "MOVEC", sizes := [.l], pat := 0x4E7B, mask := 0xFFFF, form := .ctrl,
      privileged := true }
  | .rte =>
    { mnemonic := "RTE", pat := 0x4E73, mask := 0xFFFF, form := .fixed, privileged := true,
      controlFlow := true }
  | .stop =>
    { mnemonic := "STOP", pat := 0x4E72, mask := 0xFFFF, form := .word, privileged := true }
  | .halt =>
    { mnemonic := "HALT", pat := 0x4AC8, mask := 0xFFFF, form := .fixed, privileged := true }
  | .pulse => { mnemonic := "PULSE", pat := 0x4ACC, mask := 0xFFFF, form := .fixed }
  | .strldsr =>
    { mnemonic := "STRLDSR", alts := ["STLDSR"], sizes := [.w], pat := 0x40E7, mask := 0xFFFF,
      form := .wordWord, isa := .c, privileged := true }
  | .cpushlDc =>
    { mnemonic := "CPUSHL", pat := 0xF468, mask := 0xFFF8, form := .reg, privileged := true }
  | .cpushlIc =>
    { mnemonic := "CPUSHL", pat := 0xF4A8, mask := 0xFFF8, form := .reg, privileged := true }
  | .cpushlBc =>
    { mnemonic := "CPUSHL", pat := 0xF4E8, mask := 0xFFF8, form := .reg, privileged := true }
  | .intouch =>
    { mnemonic := "INTOUCH", pat := 0xF428, mask := 0xFFF8, form := .reg, isa := .b,
      privileged := true }
  | .wddataB =>
    { mnemonic := "WDDATA", sizes := [.b], pat := 0xFB00, mask := 0xFFC0, form := .ea,
      ea := some .wdEa, eaSize := .b }
  | .wddataW =>
    { mnemonic := "WDDATA", sizes := [.w], pat := 0xFB40, mask := 0xFFC0, form := .ea,
      ea := some .wdEa, eaSize := .w }
  | .wddataL =>
    { mnemonic := "WDDATA", sizes := [.l], pat := 0xFB80, mask := 0xFFC0, form := .ea,
      ea := some .wdEa }
  | .wdebug =>
    { mnemonic := "WDEBUG", sizes := [.l], pat := 0xFBC0, mask := 0xFFC0, form := .wordEa,
      ea := some .movemEa, privileged := true }

/-- The definitions whose opcode words have the given top four bits (R152). -/
def lineOps : Nat → List Op
  | 0 => [.addi, .subi, .cmpiB, .cmpiW, .cmpiL, .andi, .ori, .eori, .btstReg, .btstImm, .bchgReg,
      .bchgImm, .bclrReg, .bclrImm, .bsetReg, .bsetImm, .bitrev, .byterev, .ff1]
  | 1 => [.moveB]
  | 2 => [.moveL, .moveaL]
  | 3 => [.moveW, .moveaW]
  | 4 => [.movemToMem, .movemToRegs, .lea, .pea, .link, .unlk, .clrB, .clrW, .clrL, .swap, .neg,
      .negx, .extW, .extL, .extbL, .tstB, .tstW, .tstL, .sats, .muluL, .mulsL, .divuL, .divsL,
      .remuL, .remsL, .notL, .tas, .jmp, .jsr, .rts, .nop, .trap, .illegal, .moveFromSr,
      .moveToSr, .moveFromCcr, .moveToCcr, .moveToUsp, .moveFromUsp, .movec, .rte, .stop, .halt,
      .pulse, .strldsr]
  | 5 => [.addq, .subq, .scc, .tpf, .tpfW, .tpfL]
  | 6 => [.bccB, .bccW, .bccL, .braB, .braW, .braL, .bsrB, .bsrW, .bsrL]
  | 7 => [.moveq, .mvsB, .mvsW, .mvzB, .mvzW]
  | 8 => [.divuW, .divsW, .orEaDn, .orDnEa]
  | 9 => [.subEaDn, .subDnEa, .suba, .subx]
  | 10 => [.mov3q]
  | 11 => [.cmpB, .cmpW, .cmpL, .cmpaW, .cmpaL, .eor]
  | 12 => [.muluW, .mulsW, .andEaDn, .andDnEa]
  | 13 => [.addEaDn, .addDnEa, .adda, .addx]
  | 14 => [.aslImm, .aslReg, .asrImm, .asrReg, .lslImm, .lslReg, .lsrImm, .lsrReg]
  | 15 => [.cpushlDc, .cpushlIc, .cpushlBc, .intouch, .wddataB, .wddataW, .wddataL, .wdebug]
  | _ => []

/-- The complete catalogue (R140). -/
def registry : List Op := (List.range 16).flatMap lineOps

/-- The registry as the active tier and the divide option show it (R144; 43 R312). -/
def Row.visible (r : Row) (isa : Isa) : Bool :=
  decide (r.isa.rank ≤ isa.tier.rank) && (!r.divide || isa.hwDivide)

/-- The EA field 5:0 of an opcode word. -/
def eaField (w : Word) : BitVec 6 := w.extractLsb' 0 6

/-- The destination EA field of an F-MOVE word as mode and register (R132, R133). -/
def moveDstField (w : Word) : BitVec 6 := w.extractLsb' 6 3 ++ w.extractLsb' 9 3

/-- The addressing-mode gate, with the MOVE combinations (R143; 41 R200). -/
def Row.modesLegal (r : Row) (tier : Tier) (w : Word) : Bool :=
  match r.ea with
  | none => true
  | some set =>
    match Mode.ofField (eaField w) with
    | none => false
    | some m =>
      set.has m &&
        match r.dst with
        | none => true
        | some dset =>
          match Mode.ofField (moveDstField w) with
          | none => false
          | some d => dset.has d && moveCombo tier r.eaSize m d

/-- Whether the definition matches the opcode word (R141 to R144). -/
def Row.hits (r : Row) (isa : Isa) (w : Word) : Bool :=
  w &&& r.mask == r.pat && r.visible isa && (r.exclude.all fun e => w &&& e.2 != e.1) &&
    r.modesLegal isa.tier w

/-- The definitions that match the opcode word. -/
def candidates (isa : Isa) (w : Word) : List Op :=
  (lineOps (w.extractLsb' 12 4).toNat).filter fun o => o.row.hits isa w

/-- What the registry answers for an opcode word (R145, R146). -/
inductive Lookup where
  /-- No definition matches. -/
  | unmatched
  /-- One definition matches. -/
  | found (op : Op)
  /-- Definitions told apart by the first extension word. -/
  | group (ops : List Op)
  /-- Two definitions match and nothing tells them apart. -/
  | ambiguous
  deriving DecidableEq, Repr

/-- The lookup of an opcode word (R141, R145, R146). -/
def lookup (isa : Isa) (w : Word) : Lookup :=
  match candidates isa w with
  | [] => .unmatched
  | ops =>
    if ops.all fun o => o.row.ext.isSome then .group ops
    else
      match ops with
      | [op] => .found op
      | _ => .ambiguous

/-- The row of a group that the extension word picks (R146). -/
def selectRow (ops : List Op) (e : Word) : Option Op :=
  ops.find? fun o => match o.row.ext with
    | some x => x.fits e
    | none => false

/-- The registry build check: no opcode word is ambiguous in the tier (R145; 70 R483). -/
def registryUnambiguous (isa : Isa) : Prop := ∀ w : Word, lookup isa w ≠ .ambiguous

/-- Whether the word is a tier-A branch word with disp8 = 0xFF (R153(c)). -/
def tierALongBranch (isa : Isa) (w : Word) : Bool :=
  isa.tier == .a && w &&& 0xF0FF == 0x60FF

/-- The EA extension words an opcode word of the row takes (R135). -/
def Row.eaWords (r : Row) (w : Word) : Nat :=
  match r.ea with
  | none => 0
  | some _ =>
    ((Mode.ofField (eaField w)).map fun m => m.extWords r.eaSize).getD 0 +
      match r.dst with
      | none => 0
      | some _ => ((Mode.ofField (moveDstField w)).map fun m => m.extWords r.eaSize).getD 0

/-- The row an instruction belongs to. -/
def Instr.op : Instr → Op
  | .moveB .. => .moveB
  | .moveW .. => .moveW
  | .moveL .. => .moveL
  | .moveaW .. => .moveaW
  | .moveaL .. => .moveaL
  | .moveq .. => .moveq
  | .mov3q .. => .mov3q
  | .mvsB .. => .mvsB
  | .mvsW .. => .mvsW
  | .mvzB .. => .mvzB
  | .mvzW .. => .mvzW
  | .movemToMem .. => .movemToMem
  | .movemToRegs .. => .movemToRegs
  | .lea .. => .lea
  | .pea .. => .pea
  | .link .. => .link
  | .unlk .. => .unlk
  | .clrB .. => .clrB
  | .clrW .. => .clrW
  | .clrL .. => .clrL
  | .swap .. => .swap
  | .addEaDn .. => .addEaDn
  | .addDnEa .. => .addDnEa
  | .adda .. => .adda
  | .addi .. => .addi
  | .addq .. => .addq
  | .addx .. => .addx
  | .subEaDn .. => .subEaDn
  | .subDnEa .. => .subDnEa
  | .suba .. => .suba
  | .subi .. => .subi
  | .subq .. => .subq
  | .subx .. => .subx
  | .cmpB .. => .cmpB
  | .cmpW .. => .cmpW
  | .cmpL .. => .cmpL
  | .cmpaW .. => .cmpaW
  | .cmpaL .. => .cmpaL
  | .cmpiB .. => .cmpiB
  | .cmpiW .. => .cmpiW
  | .cmpiL .. => .cmpiL
  | .neg .. => .neg
  | .negx .. => .negx
  | .extW .. => .extW
  | .extL .. => .extL
  | .extbL .. => .extbL
  | .tstB .. => .tstB
  | .tstW .. => .tstW
  | .tstL .. => .tstL
  | .sats .. => .sats
  | .muluW .. => .muluW
  | .mulsW .. => .mulsW
  | .muluL .. => .muluL
  | .mulsL .. => .mulsL
  | .divuW .. => .divuW
  | .divsW .. => .divsW
  | .divuL .. => .divuL
  | .divsL .. => .divsL
  | .remuL .. => .remuL
  | .remsL .. => .remsL
  | .andEaDn .. => .andEaDn
  | .andDnEa .. => .andDnEa
  | .andi .. => .andi
  | .orEaDn .. => .orEaDn
  | .orDnEa .. => .orDnEa
  | .ori .. => .ori
  | .eor .. => .eor
  | .eori .. => .eori
  | .notL .. => .notL
  | .aslImm .. => .aslImm
  | .aslReg .. => .aslReg
  | .asrImm .. => .asrImm
  | .asrReg .. => .asrReg
  | .lslImm .. => .lslImm
  | .lslReg .. => .lslReg
  | .lsrImm .. => .lsrImm
  | .lsrReg .. => .lsrReg
  | .btstReg .. => .btstReg
  | .btstImm .. => .btstImm
  | .bchgReg .. => .bchgReg
  | .bchgImm .. => .bchgImm
  | .bclrReg .. => .bclrReg
  | .bclrImm .. => .bclrImm
  | .bsetReg .. => .bsetReg
  | .bsetImm .. => .bsetImm
  | .bitrev .. => .bitrev
  | .byterev .. => .byterev
  | .ff1 .. => .ff1
  | .tas .. => .tas
  | .bccB .. => .bccB
  | .bccW .. => .bccW
  | .bccL .. => .bccL
  | .braB .. => .braB
  | .braW .. => .braW
  | .braL .. => .braL
  | .bsrB .. => .bsrB
  | .bsrW .. => .bsrW
  | .bsrL .. => .bsrL
  | .jmp .. => .jmp
  | .jsr .. => .jsr
  | .rts => .rts
  | .scc .. => .scc
  | .tpf => .tpf
  | .tpfW .. => .tpfW
  | .tpfL .. => .tpfL
  | .nop => .nop
  | .trap .. => .trap
  | .illegal => .illegal
  | .moveFromSr .. => .moveFromSr
  | .moveToSr .. => .moveToSr
  | .moveFromCcr .. => .moveFromCcr
  | .moveToCcr .. => .moveToCcr
  | .moveToUsp .. => .moveToUsp
  | .moveFromUsp .. => .moveFromUsp
  | .movec .. => .movec
  | .rte => .rte
  | .stop .. => .stop
  | .halt => .halt
  | .pulse => .pulse
  | .strldsr .. => .strldsr
  | .cpushlDc .. => .cpushlDc
  | .cpushlIc .. => .cpushlIc
  | .cpushlBc .. => .cpushlBc
  | .intouch .. => .intouch
  | .wddataB .. => .wddataB
  | .wddataW .. => .wddataW
  | .wddataL .. => .wddataL
  | .wdebug .. => .wdebug

/-- The operand fields of an instruction, in its row's layout. -/
def Instr.args : Instr → Args
  | .moveB src dst => .moveEa src dst
  | .moveW src dst => .moveEa src dst
  | .moveL src dst => .moveEa src dst
  | .moveaW src rx => .eaReg src rx
  | .moveaL src rx => .eaReg src rx
  | .moveq d8 dx => .quick8 d8 dx
  | .mov3q q dst => .quickEa q dst
  | .mvsB src rx => .eaReg src rx
  | .mvsW src rx => .eaReg src rx
  | .mvzB src rx => .eaReg src rx
  | .mvzW src rx => .eaReg src rx
  | .movemToMem mask dst => .maskEa mask dst
  | .movemToRegs src mask => .eaMask src mask
  | .lea src rx => .eaReg src rx
  | .pea ea => .ea ea
  | .link ay d16 => .regDisp ay d16
  | .unlk r => .reg r
  | .clrB ea => .ea ea
  | .clrW ea => .ea ea
  | .clrL ea => .ea ea
  | .swap r => .reg r
  | .addEaDn src rx => .eaReg src rx
  | .addDnEa ry dst => .regEa ry dst
  | .adda src rx => .eaReg src rx
  | .addi imm dx => .immReg imm dx
  | .addq q dst => .quickEa q dst
  | .addx dy dx => .regReg dy dx
  | .subEaDn src rx => .eaReg src rx
  | .subDnEa ry dst => .regEa ry dst
  | .suba src rx => .eaReg src rx
  | .subi imm dx => .immReg imm dx
  | .subq q dst => .quickEa q dst
  | .subx dy dx => .regReg dy dx
  | .cmpB src rx => .eaReg src rx
  | .cmpW src rx => .eaReg src rx
  | .cmpL src rx => .eaReg src rx
  | .cmpaW src rx => .eaReg src rx
  | .cmpaL src rx => .eaReg src rx
  | .cmpiB imm dx => .immBReg imm dx
  | .cmpiW imm dx => .immWReg imm dx
  | .cmpiL imm dx => .immReg imm dx
  | .neg r => .reg r
  | .negx r => .reg r
  | .extW r => .reg r
  | .extL r => .reg r
  | .extbL r => .reg r
  | .tstB ea => .ea ea
  | .tstW ea => .ea ea
  | .tstL ea => .ea ea
  | .sats r => .reg r
  | .muluW src rx => .eaReg src rx
  | .mulsW src rx => .eaReg src rx
  | .muluL src dx => .mul src dx
  | .mulsL src dx => .mul src dx
  | .divuW src rx => .eaReg src rx
  | .divsW src rx => .eaReg src rx
  | .divuL src dx => .div src dx
  | .divsL src dx => .div src dx
  | .remuL src dw dx => .rem src dw dx
  | .remsL src dw dx => .rem src dw dx
  | .andEaDn src rx => .eaReg src rx
  | .andDnEa ry dst => .regEa ry dst
  | .andi imm dx => .immReg imm dx
  | .orEaDn src rx => .eaReg src rx
  | .orDnEa ry dst => .regEa ry dst
  | .ori imm dx => .immReg imm dx
  | .eor ry dst => .regEa ry dst
  | .eori imm dx => .immReg imm dx
  | .notL r => .reg r
  | .aslImm count dx => .shiftImm count dx
  | .aslReg dy dx => .shiftReg dy dx
  | .asrImm count dx => .shiftImm count dx
  | .asrReg dy dx => .shiftReg dy dx
  | .lslImm count dx => .shiftImm count dx
  | .lslReg dy dx => .shiftReg dy dx
  | .lsrImm count dx => .shiftImm count dx
  | .lsrReg dy dx => .shiftReg dy dx
  | .btstReg ry dst => .regEa ry dst
  | .btstImm n dst => .bitEa n dst
  | .bchgReg ry dst => .regEa ry dst
  | .bchgImm n dst => .bitEa n dst
  | .bclrReg ry dst => .regEa ry dst
  | .bclrImm n dst => .bitEa n dst
  | .bsetReg ry dst => .regEa ry dst
  | .bsetImm n dst => .bitEa n dst
  | .bitrev r => .reg r
  | .byterev r => .reg r
  | .ff1 r => .reg r
  | .tas ea => .ea ea
  | .bccB cond d8 => .condDisp8 cond d8
  | .bccW cond d16 => .condDisp16 cond d16
  | .bccL cond d32 => .condDisp32 cond d32
  | .braB d8 => .disp8 d8
  | .braW d16 => .disp16 d16
  | .braL d32 => .disp32 d32
  | .bsrB d8 => .disp8 d8
  | .bsrW d16 => .disp16 d16
  | .bsrL d32 => .disp32 d32
  | .jmp ea => .ea ea
  | .jsr ea => .ea ea
  | .rts => .fixed
  | .scc cond dx => .condReg cond dx
  | .tpf => .fixed
  | .tpfW imm => .word imm
  | .tpfL imm => .long imm
  | .nop => .fixed
  | .trap v => .vector v
  | .illegal => .fixed
  | .moveFromSr r => .reg r
  | .moveToSr ea => .ea ea
  | .moveFromCcr r => .reg r
  | .moveToCcr ea => .ea ea
  | .moveToUsp r => .reg r
  | .moveFromUsp r => .reg r
  | .movec ry code => .ctrl ry code
  | .rte => .fixed
  | .stop imm => .word imm
  | .halt => .fixed
  | .pulse => .fixed
  | .strldsr second imm => .wordWord second imm
  | .cpushlDc r => .reg r
  | .cpushlIc r => .reg r
  | .cpushlBc r => .reg r
  | .intouch r => .reg r
  | .wddataB ea => .ea ea
  | .wddataW ea => .ea ea
  | .wddataL ea => .ea ea
  | .wdebug second ea => .wordEa second ea

/-- The definition an instruction is an instance of. -/
def Instr.row (i : Instr) : Row := i.op.row

/-- Applies an instruction to operands of the layout `moveEa`. -/
def takeMoveEa (k : Ea → Ea → Instr) : Args → Option Instr
  | .moveEa src dst => some (k src dst)
  | _ => none

/-- Applies an instruction to operands of the layout `eaReg`. -/
def takeEaReg (k : Ea → RegNo → Instr) : Args → Option Instr
  | .eaReg src rx => some (k src rx)
  | _ => none

/-- Applies an instruction to operands of the layout `regEa`. -/
def takeRegEa (k : RegNo → Ea → Instr) : Args → Option Instr
  | .regEa ry dst => some (k ry dst)
  | _ => none

/-- Applies an instruction to operands of the layout `quick8`. -/
def takeQuick8 (k : Byte → RegNo → Instr) : Args → Option Instr
  | .quick8 d8 dx => some (k d8 dx)
  | _ => none

/-- Applies an instruction to operands of the layout `quickEa`. -/
def takeQuickEa (k : BitVec 3 → Ea → Instr) : Args → Option Instr
  | .quickEa q dst => some (k q dst)
  | _ => none

/-- Applies an instruction to operands of the layout `shiftImm`. -/
def takeShiftImm (k : BitVec 3 → RegNo → Instr) : Args → Option Instr
  | .shiftImm count dx => some (k count dx)
  | _ => none

/-- Applies an instruction to operands of the layout `maskEa`. -/
def takeMaskEa (k : Word → Ea → Instr) : Args → Option Instr
  | .maskEa mask dst => some (k mask dst)
  | _ => none

/-- Applies an instruction to operands of the layout `eaMask`. -/
def takeEaMask (k : Ea → Word → Instr) : Args → Option Instr
  | .eaMask src mask => some (k src mask)
  | _ => none

/-- Applies an instruction to operands of the layout `ea`. -/
def takeEa (k : Ea → Instr) : Args → Option Instr
  | .ea ea => some (k ea)
  | _ => none

/-- Applies an instruction to operands of the layout `reg`. -/
def takeReg (k : RegNo → Instr) : Args → Option Instr
  | .reg r => some (k r)
  | _ => none

/-- Applies an instruction to operands of the layout `regDisp`. -/
def takeRegDisp (k : RegNo → Word → Instr) : Args → Option Instr
  | .regDisp ay d16 => some (k ay d16)
  | _ => none

/-- Applies an instruction to operands of the layout `immBReg`. -/
def takeImmBReg (k : Byte → RegNo → Instr) : Args → Option Instr
  | .immBReg imm dx => some (k imm dx)
  | _ => none

/-- Applies an instruction to operands of the layout `immWReg`. -/
def takeImmWReg (k : Word → RegNo → Instr) : Args → Option Instr
  | .immWReg imm dx => some (k imm dx)
  | _ => none

/-- Applies an instruction to operands of the layout `immReg`. -/
def takeImmReg (k : Long → RegNo → Instr) : Args → Option Instr
  | .immReg imm dx => some (k imm dx)
  | _ => none

/-- Applies an instruction to operands of the layout `regReg`. -/
def takeRegReg (k : RegNo → RegNo → Instr) : Args → Option Instr
  | .regReg dy dx => some (k dy dx)
  | _ => none

/-- Applies an instruction to operands of the layout `shiftReg`. -/
def takeShiftReg (k : RegNo → RegNo → Instr) : Args → Option Instr
  | .shiftReg dy dx => some (k dy dx)
  | _ => none

/-- Applies an instruction to operands of the layout `mul`. -/
def takeMul (k : Ea → RegNo → Instr) : Args → Option Instr
  | .mul src dx => some (k src dx)
  | _ => none

/-- Applies an instruction to operands of the layout `div`. -/
def takeDiv (k : Ea → RegNo → Instr) : Args → Option Instr
  | .div src dx => some (k src dx)
  | _ => none

/-- Applies an instruction to operands of the layout `rem`. -/
def takeRem (k : Ea → RegNo → RegNo → Instr) : Args → Option Instr
  | .rem src dw dx => some (k src dw dx)
  | _ => none

/-- Applies an instruction to operands of the layout `bitEa`. -/
def takeBitEa (k : Byte → Ea → Instr) : Args → Option Instr
  | .bitEa n dst => some (k n dst)
  | _ => none

/-- Applies an instruction to operands of the layout `condDisp8`. -/
def takeCondDisp8 (k : Cond → Byte → Instr) : Args → Option Instr
  | .condDisp8 cond d8 => some (k cond d8)
  | _ => none

/-- Applies an instruction to operands of the layout `condDisp16`. -/
def takeCondDisp16 (k : Cond → Word → Instr) : Args → Option Instr
  | .condDisp16 cond d16 => some (k cond d16)
  | _ => none

/-- Applies an instruction to operands of the layout `condDisp32`. -/
def takeCondDisp32 (k : Cond → Long → Instr) : Args → Option Instr
  | .condDisp32 cond d32 => some (k cond d32)
  | _ => none

/-- Applies an instruction to operands of the layout `disp8`. -/
def takeDisp8 (k : Byte → Instr) : Args → Option Instr
  | .disp8 d8 => some (k d8)
  | _ => none

/-- Applies an instruction to operands of the layout `disp16`. -/
def takeDisp16 (k : Word → Instr) : Args → Option Instr
  | .disp16 d16 => some (k d16)
  | _ => none

/-- Applies an instruction to operands of the layout `disp32`. -/
def takeDisp32 (k : Long → Instr) : Args → Option Instr
  | .disp32 d32 => some (k d32)
  | _ => none

/-- Applies an instruction to operands of the layout `condReg`. -/
def takeCondReg (k : Cond → RegNo → Instr) : Args → Option Instr
  | .condReg cond dx => some (k cond dx)
  | _ => none

/-- Applies an instruction to operands of the layout `fixed`. -/
def takeFixed (k : Instr) : Args → Option Instr
  | .fixed => some k
  | _ => none

/-- Applies an instruction to operands of the layout `word`. -/
def takeWord (k : Word → Instr) : Args → Option Instr
  | .word imm => some (k imm)
  | _ => none

/-- Applies an instruction to operands of the layout `long`. -/
def takeLong (k : Long → Instr) : Args → Option Instr
  | .long imm => some (k imm)
  | _ => none

/-- Applies an instruction to operands of the layout `wordWord`. -/
def takeWordWord (k : Word → Word → Instr) : Args → Option Instr
  | .wordWord second imm => some (k second imm)
  | _ => none

/-- Applies an instruction to operands of the layout `wordEa`. -/
def takeWordEa (k : Word → Ea → Instr) : Args → Option Instr
  | .wordEa second ea => some (k second ea)
  | _ => none

/-- Applies an instruction to operands of the layout `vector`. -/
def takeVector (k : BitVec 4 → Instr) : Args → Option Instr
  | .vector v => some (k v)
  | _ => none

/-- Applies an instruction to operands of the layout `ctrl`. -/
def takeCtrl (k : GReg → BitVec 12 → Instr) : Args → Option Instr
  | .ctrl ry code => some (k ry code)
  | _ => none

/-- The instruction of a row with the given operand fields, none for fields of another layout. -/
def Instr.make (op : Op) (a : Args) : Option Instr :=
  match op with
  | .moveB => takeMoveEa .moveB a
  | .moveW => takeMoveEa .moveW a
  | .moveL => takeMoveEa .moveL a
  | .moveaW => takeEaReg .moveaW a
  | .moveaL => takeEaReg .moveaL a
  | .moveq => takeQuick8 .moveq a
  | .mov3q => takeQuickEa .mov3q a
  | .mvsB => takeEaReg .mvsB a
  | .mvsW => takeEaReg .mvsW a
  | .mvzB => takeEaReg .mvzB a
  | .mvzW => takeEaReg .mvzW a
  | .movemToMem => takeMaskEa .movemToMem a
  | .movemToRegs => takeEaMask .movemToRegs a
  | .lea => takeEaReg .lea a
  | .pea => takeEa .pea a
  | .link => takeRegDisp .link a
  | .unlk => takeReg .unlk a
  | .clrB => takeEa .clrB a
  | .clrW => takeEa .clrW a
  | .clrL => takeEa .clrL a
  | .swap => takeReg .swap a
  | .addEaDn => takeEaReg .addEaDn a
  | .addDnEa => takeRegEa .addDnEa a
  | .adda => takeEaReg .adda a
  | .addi => takeImmReg .addi a
  | .addq => takeQuickEa .addq a
  | .addx => takeRegReg .addx a
  | .subEaDn => takeEaReg .subEaDn a
  | .subDnEa => takeRegEa .subDnEa a
  | .suba => takeEaReg .suba a
  | .subi => takeImmReg .subi a
  | .subq => takeQuickEa .subq a
  | .subx => takeRegReg .subx a
  | .cmpB => takeEaReg .cmpB a
  | .cmpW => takeEaReg .cmpW a
  | .cmpL => takeEaReg .cmpL a
  | .cmpaW => takeEaReg .cmpaW a
  | .cmpaL => takeEaReg .cmpaL a
  | .cmpiB => takeImmBReg .cmpiB a
  | .cmpiW => takeImmWReg .cmpiW a
  | .cmpiL => takeImmReg .cmpiL a
  | .neg => takeReg .neg a
  | .negx => takeReg .negx a
  | .extW => takeReg .extW a
  | .extL => takeReg .extL a
  | .extbL => takeReg .extbL a
  | .tstB => takeEa .tstB a
  | .tstW => takeEa .tstW a
  | .tstL => takeEa .tstL a
  | .sats => takeReg .sats a
  | .muluW => takeEaReg .muluW a
  | .mulsW => takeEaReg .mulsW a
  | .muluL => takeMul .muluL a
  | .mulsL => takeMul .mulsL a
  | .divuW => takeEaReg .divuW a
  | .divsW => takeEaReg .divsW a
  | .divuL => takeDiv .divuL a
  | .divsL => takeDiv .divsL a
  | .remuL => takeRem .remuL a
  | .remsL => takeRem .remsL a
  | .andEaDn => takeEaReg .andEaDn a
  | .andDnEa => takeRegEa .andDnEa a
  | .andi => takeImmReg .andi a
  | .orEaDn => takeEaReg .orEaDn a
  | .orDnEa => takeRegEa .orDnEa a
  | .ori => takeImmReg .ori a
  | .eor => takeRegEa .eor a
  | .eori => takeImmReg .eori a
  | .notL => takeReg .notL a
  | .aslImm => takeShiftImm .aslImm a
  | .aslReg => takeShiftReg .aslReg a
  | .asrImm => takeShiftImm .asrImm a
  | .asrReg => takeShiftReg .asrReg a
  | .lslImm => takeShiftImm .lslImm a
  | .lslReg => takeShiftReg .lslReg a
  | .lsrImm => takeShiftImm .lsrImm a
  | .lsrReg => takeShiftReg .lsrReg a
  | .btstReg => takeRegEa .btstReg a
  | .btstImm => takeBitEa .btstImm a
  | .bchgReg => takeRegEa .bchgReg a
  | .bchgImm => takeBitEa .bchgImm a
  | .bclrReg => takeRegEa .bclrReg a
  | .bclrImm => takeBitEa .bclrImm a
  | .bsetReg => takeRegEa .bsetReg a
  | .bsetImm => takeBitEa .bsetImm a
  | .bitrev => takeReg .bitrev a
  | .byterev => takeReg .byterev a
  | .ff1 => takeReg .ff1 a
  | .tas => takeEa .tas a
  | .bccB => takeCondDisp8 .bccB a
  | .bccW => takeCondDisp16 .bccW a
  | .bccL => takeCondDisp32 .bccL a
  | .braB => takeDisp8 .braB a
  | .braW => takeDisp16 .braW a
  | .braL => takeDisp32 .braL a
  | .bsrB => takeDisp8 .bsrB a
  | .bsrW => takeDisp16 .bsrW a
  | .bsrL => takeDisp32 .bsrL a
  | .jmp => takeEa .jmp a
  | .jsr => takeEa .jsr a
  | .rts => takeFixed .rts a
  | .scc => takeCondReg .scc a
  | .tpf => takeFixed .tpf a
  | .tpfW => takeWord .tpfW a
  | .tpfL => takeLong .tpfL a
  | .nop => takeFixed .nop a
  | .trap => takeVector .trap a
  | .illegal => takeFixed .illegal a
  | .moveFromSr => takeReg .moveFromSr a
  | .moveToSr => takeEa .moveToSr a
  | .moveFromCcr => takeReg .moveFromCcr a
  | .moveToCcr => takeEa .moveToCcr a
  | .moveToUsp => takeReg .moveToUsp a
  | .moveFromUsp => takeReg .moveFromUsp a
  | .movec => takeCtrl .movec a
  | .rte => takeFixed .rte a
  | .stop => takeWord .stop a
  | .halt => takeFixed .halt a
  | .pulse => takeFixed .pulse a
  | .strldsr => takeWordWord .strldsr a
  | .cpushlDc => takeReg .cpushlDc a
  | .cpushlIc => takeReg .cpushlIc a
  | .cpushlBc => takeReg .cpushlBc a
  | .intouch => takeReg .intouch a
  | .wddataB => takeEa .wddataB a
  | .wddataW => takeEa .wddataW a
  | .wddataL => takeEa .wddataL a
  | .wdebug => takeWordEa .wdebug a

end Sys2Proof
end

