-- ==== Sys2Proof/WellFormed.lean ====
section
/-! DEFINITION. Which instructions are legal in a tier: the row is visible, each operand's mode is in the
row's set, an immediate has the operand's size, and the fields avoid the values that belong to other rows
(30_encoding.md R142-R144, R151; 41 R200; 43 R310; 45 R360, R361). -/

namespace Sys2Proof

/-- The addressing mode of a descriptor. -/
def Ea.mode : Ea → Mode
  | .dn _ => .dn
  | .an _ => .an
  | .ind _ => .ind
  | .postInc _ => .postInc
  | .preDec _ => .preDec
  | .disp _ _ => .disp
  | .index _ _ => .index
  | .absW _ => .absW
  | .absL _ => .absL
  | .pcDisp _ => .pcDisp
  | .pcIndex _ => .pcIndex
  | .immB _ => .imm
  | .immW _ => .imm
  | .immL _ => .imm

/-- An immediate is of the operand size it is read at (30 R134, R137). -/
def Ea.sizeFits : Ea → Size → Bool
  | .immB _, sz => sz == .b
  | .immW _, sz => sz == .w
  | .immL _, sz => sz == .l
  | _, _ => true

/-- The descriptor is legal in the set at the size (30 R143, R151). -/
def Ea.legal (e : Ea) (set : Option ModeSet) (sz : Size) : Bool :=
  match set with
  | none => false
  | some s => s.has e.mode && e.sizeFits sz

/-- A condition that a Bcc row admits: codes 2 to 15 (45 R361). -/
def Cond.branches (c : Cond) : Bool := c != .t && c != .f

/-- A displacement byte that selects the byte form (45 R360). -/
def byteDisp (d : Byte) : Bool := d != 0 && d != 0xFF

/-- The operand fields are legal for the row in the tier. -/
def Args.legal (r : Row) (isa : Isa) : Args → Bool
  | .moveEa src dst =>
    src.legal r.ea r.eaSize && dst.legal r.dst r.eaSize &&
      moveCombo isa.tier r.eaSize src.mode dst.mode
  | .eaReg e _ | .regEa _ e | .quickEa _ e | .maskEa _ e | .eaMask e _ | .ea e => e.legal r.ea r.eaSize
  | .mul e _ | .div e _ | .bitEa _ e | .wordEa _ e => e.legal r.ea r.eaSize
  | .rem e dw dx => e.legal r.ea r.eaSize && dw != dx
  | .condDisp8 cond d8 => cond.branches && byteDisp d8
  | .condDisp16 cond _ => cond.branches
  | .condDisp32 cond _ => cond.branches
  | .disp8 d8 => byteDisp d8
  | .quick8 .. | .shiftImm .. | .shiftReg .. | .reg _ | .regDisp .. | .immBReg .. | .immWReg .. | .immReg .. => true
  | .regReg .. | .disp16 _ | .disp32 _ | .condReg .. | .fixed | .word _ | .long _ => true
  | .wordWord .. | .vector _ | .ctrl .. => true

/-- The instruction is legal in the tier and with the divide option. -/
def Instr.wellFormed (isa : Isa) (i : Instr) : Bool :=
  i.row.visible isa && i.args.legal i.row isa

end Sys2Proof
end

