-- ==== Sys2Proof/Decode.lean ====
section
/-! DEFINITION. The decoder, total on any bytes, and the encoder (30_encoding.md R130-R138, R146-R150). -/

namespace Sys2Proof

/-- Why bytes are not read as an instruction. -/
inductive Reject where
  /-- The bytes end before the instruction does. -/
  | truncated
  /-- No definition matches the opcode word (R147). -/
  | unmatched (w : Word)
  /-- A tier-A branch word with disp8 = 0xFF (R153(c)). -/
  | unknownBehaviour (w : Word)
  /-- Two definitions match (R145). -/
  | registryAmbiguity (w : Word)
  /-- A MUL.L or DIV.L extension word with a reserved bit set (R146). -/
  | reservedExtension (w e : Word)
  /-- A brief extension word that is not legal (20 R97). -/
  | badBrief
  /-- A row that cannot read its own word (R150). -/
  | decodeLogicError (w : Word)
  deriving DecidableEq, Repr

/-- The scale of a brief extension word, none for 8 while `HAS_FPU = false` (R136; 20 R97). -/
def Scale.ofBits (b : BitVec 2) : Option Scale :=
  match b.toNat with
  | 0 => some .one
  | 1 => some .two
  | 2 => some .four
  | _ => none

/-- The scale's code (R136). -/
def Scale.bits : Scale → BitVec 2
  | .one => 0
  | .two => 1
  | .four => 2

/-- A brief extension word: W/L must be 1, the format bit 0, the scale 1, 2 or 4 (R136; 20 R97). -/
def Brief.ofWord (x : Word) : Option Brief :=
  if x.getLsbD 11 && !x.getLsbD 8 then
    (Scale.ofBits (x.extractLsb' 9 2)).map fun scale =>
      { xreg := GReg.ofBits (x.extractLsb' 12 4), scale, d8 := x.extractLsb' 0 8 }
  else none

/-- The brief extension word (R136). -/
def Brief.word (x : Brief) : Word := x.xreg.bits ++ 1#1 ++ x.scale.bits ++ 0#1 ++ x.d8

/-- The descriptor of an EA field with its extension words, at an operand size (R133, R137). -/
def Ea.ofField (f : BitVec 6) (sz : Size) (es : List Word) : Except Reject Ea :=
  let n := f.extractLsb' 0 3
  match Mode.ofField f, sz, es with
  | some .dn, _, _ => .ok (.dn n)
  | some .an, _, _ => .ok (.an n)
  | some .ind, _, _ => .ok (.ind n)
  | some .postInc, _, _ => .ok (.postInc n)
  | some .preDec, _, _ => .ok (.preDec n)
  | some .disp, _, [d] => .ok (.disp n d)
  | some .index, _, [x] =>
    match Brief.ofWord x with
    | some b => .ok (.index n b)
    | none => .error .badBrief
  | some .absW, _, [a] => .ok (.absW a)
  | some .absL, _, [h, l] => .ok (.absL (h ++ l))
  | some .pcDisp, _, [d] => .ok (.pcDisp d)
  | some .pcIndex, _, [x] =>
    match Brief.ofWord x with
    | some b => .ok (.pcIndex b)
    | none => .error .badBrief
  | some .imm, .b, [v] => .ok (.immB (v.extractLsb' 0 8))
  | some .imm, .w, [v] => .ok (.immW v)
  | some .imm, .l, [h, l] => .ok (.immL (h ++ l))
  | _, _, _ => .error (.decodeLogicError 0)

/-- The mode and register bits of a descriptor (R133). -/
def Ea.field : Ea → BitVec 6
  | .dn n => 0#3 ++ n
  | .an n => 1#3 ++ n
  | .ind n => 2#3 ++ n
  | .postInc n => 3#3 ++ n
  | .preDec n => 4#3 ++ n
  | .disp n _ => 5#3 ++ n
  | .index n _ => 6#3 ++ n
  | .absW _ => 0x38
  | .absL _ => 0x39
  | .pcDisp _ => 0x3A
  | .pcIndex _ => 0x3B
  | .immB _ | .immW _ | .immL _ => 0x3C

/-- The high and low word of a long word, high first (R137). -/
def longWords (v : Long) : List Word := [v.extractLsb' 16 16, v.extractLsb' 0 16]

/-- The extension words of a descriptor; a byte immediate's high byte is 0 (R133, R137). -/
def Ea.exts : Ea → List Word
  | .dn _ | .an _ | .ind _ | .postInc _ | .preDec _ => []
  | .disp _ d => [d]
  | .index _ x => [x.word]
  | .absW a => [a]
  | .absL a => longWords a
  | .pcDisp d => [d]
  | .pcIndex x => [x.word]
  | .immB v => [v.setWidth 16]
  | .immW v => [v]
  | .immL v => longWords v

/-- The operand fields of the row's layout, read from the opcode word, the instruction extension words
`is` and the EA extension words `es` (R132, R138). -/
def Row.readArgs (r : Row) (w : Word) (is es : List Word) : Except Reject Args :=
  let ea := Ea.ofField (eaField w) r.eaSize es
  match r.form, is with
  | .moveEa, [] =>
    let k := ((Mode.ofField (eaField w)).map fun m => m.extWords r.eaSize).getD 0
    match Ea.ofField (eaField w) r.eaSize (es.take k),
      Ea.ofField (moveDstField w) r.eaSize (es.drop k) with
    | .ok src, .ok dst => .ok (.moveEa src dst)
    | .error e, _ => .error e
    | _, .error e => .error e
  | .eaReg, [] => ea.map fun e => .eaReg e (w.reg 9)
  | .regEa, [] => ea.map fun e => .regEa (w.reg 9) e
  | .quick8, [] => .ok (.quick8 (w.extractLsb' 0 8) (w.reg 9))
  | .quickEa, [] => ea.map fun e => .quickEa (w.reg 9) e
  | .shiftImm, [] => .ok (.shiftImm (w.reg 9) (w.reg 0))
  | .shiftReg, [] => .ok (.shiftReg (w.reg 9) (w.reg 0))
  | .maskEa, [m] => ea.map fun e => .maskEa m e
  | .eaMask, [m] => ea.map fun e => .eaMask e m
  | .ea, [] => ea.map fun e => .ea e
  | .reg, [] => .ok (.reg (w.reg 0))
  | .regDisp, [d] => .ok (.regDisp (w.reg 0) d)
  | .immBReg, [v] => .ok (.immBReg (v.extractLsb' 0 8) (w.reg 0))
  | .immWReg, [v] => .ok (.immWReg v (w.reg 0))
  | .immReg, [h, l] => .ok (.immReg (h ++ l) (w.reg 0))
  | .regReg, [] => .ok (.regReg (w.reg 0) (w.reg 9))
  | .mul, [e] => ea.map fun s => .mul s (e.reg 12)
  | .div, [e] => ea.map fun s => .div s (e.reg 12)
  | .rem, [e] => ea.map fun s => .rem s (e.reg 0) (e.reg 12)
  | .bitEa, [n] => ea.map fun e => .bitEa (n.extractLsb' 0 8) e
  | .condDisp8, [] => .ok (.condDisp8 (Cond.ofCode (w.extractLsb' 8 4)) (w.extractLsb' 0 8))
  | .condDisp16, [d] => .ok (.condDisp16 (Cond.ofCode (w.extractLsb' 8 4)) d)
  | .condDisp32, [h, l] => .ok (.condDisp32 (Cond.ofCode (w.extractLsb' 8 4)) (h ++ l))
  | .disp8, [] => .ok (.disp8 (w.extractLsb' 0 8))
  | .disp16, [d] => .ok (.disp16 d)
  | .disp32, [h, l] => .ok (.disp32 (h ++ l))
  | .condReg, [] => .ok (.condReg (Cond.ofCode (w.extractLsb' 8 4)) (w.reg 0))
  | .fixed, [] => .ok .fixed
  | .word, [v] => .ok (.word v)
  | .long, [h, l] => .ok (.long (h ++ l))
  | .wordWord, [x, v] => .ok (.wordWord x v)
  | .wordEa, [x] => ea.map fun e => .wordEa x e
  | .vector, [] => .ok (.vector (w.extractLsb' 0 4))
  | .ctrl, [x] => .ok (.ctrl (GReg.ofBits (x.extractLsb' 12 4)) (x.extractLsb' 0 12))
  | _, _ => .error (.decodeLogicError w)

/-- The instruction of a definition with its words (R148, R150). -/
def Op.read (op : Op) (w : Word) (is es : List Word) : Except Reject Instr :=
  match op.row.readArgs w is es with
  | .error .badBrief => .error .badBrief
  | .error _ => .error (.decodeLogicError w)
  | .ok a =>
    match Instr.make op a with
    | some i => .ok i
    | none => .error (.decodeLogicError w)

/-- The definition an opcode word and its first extension word select (R146, R153(c)). -/
def selectOp (isa : Isa) (w : Word) (rest : List Word) : Except Reject Op :=
  match lookup isa w with
  | .unmatched => .error (if tierALongBranch isa w then .unknownBehaviour w else .unmatched w)
  | .ambiguous => .error (.registryAmbiguity w)
  | .found op => .ok op
  | .group ops =>
    match rest with
    | [] => .error .truncated
    | e :: _ =>
      match selectRow ops e with
      | none => .error (.reservedExtension w e)
      | some op => .ok op

/-- The instruction at the head of a stream of words, and how many words it has (R130, R135). -/
def decodeWords (isa : Isa) : List Word → Except Reject (Instr × Nat)
  | [] => .error .truncated
  | w :: rest =>
    match selectOp isa w rest with
    | .error e => .error e
    | .ok op =>
      let i := op.row.form.extWords
      let n := i + op.row.eaWords w
      if rest.length < n then .error .truncated
      else
        match op.read w (rest.take i) ((rest.drop i).take (n - i)) with
        | .error e => .error e
        | .ok ins => .ok (ins, n + 1)

/-- The instruction at the head of a stream of bytes, and how many bytes it has. -/
def decode (isa : Isa) (bs : List Byte) : Except Reject (Instr × Nat) :=
  (decodeWords isa (wordsOfBytes bs)).map fun (i, n) => (i, 2 * n)

/-- The bits an instruction's operands put into the opcode word (R132, R156). -/
def Args.fieldBits : Args → Word
  | .moveEa src dst => regAt (dst.field.extractLsb' 0 3) 9 ||| regAt (dst.field.extractLsb' 3 3) 6 |||
      src.field.setWidth 16
  | .eaReg e x => regAt x 9 ||| e.field.setWidth 16
  | .regEa y e => regAt y 9 ||| e.field.setWidth 16
  | .quick8 d x => regAt x 9 ||| d.setWidth 16
  | .quickEa q e => regAt q 9 ||| e.field.setWidth 16
  | .shiftImm c x => regAt c 9 ||| regAt x 0
  | .shiftReg y x => regAt y 9 ||| regAt x 0
  | .maskEa _ e | .eaMask e _ | .ea e | .mul e _ | .div e _ | .rem e _ _ => e.field.setWidth 16
  | .bitEa _ e | .wordEa _ e => e.field.setWidth 16
  | .reg x | .regDisp x _ | .immBReg _ x | .immWReg _ x | .immReg _ x => regAt x 0
  | .regReg y x => regAt x 9 ||| regAt y 0
  | .condDisp8 c d => c.code.setWidth 16 <<< 8 ||| d.setWidth 16
  | .condDisp16 c _ => c.code.setWidth 16 <<< 8
  | .condDisp32 c _ => c.code.setWidth 16 <<< 8
  | .disp8 d => d.setWidth 16
  | .condReg c x => c.code.setWidth 16 <<< 8 ||| regAt x 0
  | .vector v => v.setWidth 16
  | .disp16 _ | .disp32 _ | .fixed | .word _ | .long _ | .wordWord _ _ | .ctrl _ _ => 0

/-- The fixed bits of the row's own extension word (43 R300, R301). -/
def Row.extPat (r : Row) : Word :=
  match r.ext with
  | some x => x.pat
  | none => 0

/-- The extension words, the instruction's own first, then the EAs' (R138). -/
def Args.exts (r : Row) : Args → List Word
  | .moveEa src dst => src.exts ++ dst.exts
  | .eaReg e _ | .regEa _ e | .quickEa _ e | .ea e => e.exts
  | .maskEa m e => m :: e.exts
  | .eaMask e m => m :: e.exts
  | .regDisp _ d => [d]
  | .immBReg v _ => [v.setWidth 16]
  | .immWReg v _ => [v]
  | .immReg v _ => longWords v
  | .mul e x => (r.extPat ||| regAt x 12) :: e.exts
  | .div e x => (r.extPat ||| regAt x 12 ||| regAt x 0) :: e.exts
  | .rem e w x => (r.extPat ||| regAt x 12 ||| regAt w 0) :: e.exts
  | .bitEa n e => n.setWidth 16 :: e.exts
  | .condDisp16 _ d => [d]
  | .condDisp32 _ d => longWords d
  | .disp16 d => [d]
  | .disp32 d => longWords d
  | .word v => [v]
  | .long v => longWords v
  | .wordWord x v => [x, v]
  | .wordEa x e => x :: e.exts
  | .ctrl y code => [y.bits ++ code]
  | .quick8 _ _ | .shiftImm _ _ | .shiftReg _ _ | .reg _ | .regReg _ _ | .condDisp8 _ _ | .disp8 _ => []
  | .condReg _ _ | .fixed | .vector _ => []

/-- The words of an instruction (R156). -/
def encode (i : Instr) : List Word :=
  (i.row.pat ||| i.args.fieldBits) :: i.args.exts i.row

/-- The length of an instruction in bytes: 2 * (1 + I + E_src + E_dst) (R135, R157). -/
def Instr.size (i : Instr) : Nat := 2 * (encode i).length

/-- The words of the number `w`, numbered as spec/opcode_table.json numbers its bits: bits above `nbits`
are 0 and an instruction has at most three words. -/
def tableWords (nbits w : Nat) : List Word :=
  let v := w % 2 ^ nbits
  [BitVec.ofNat 16 v, BitVec.ofNat 16 (v / 2 ^ 16), BitVec.ofNat 16 (v / 2 ^ 32)]

/-- The instruction the decoder reads from a row's word in the default configuration. -/
def decodeTableWord (nbits w : Nat) : Option Instr :=
  match decode Config.default.isa (bytesOfWords (tableWords nbits w)) with
  | .ok (i, _) => some i
  | .error _ => none

end Sys2Proof
end

