-- ==== Sys2Proof/Machine/Fetch.lean ====
section
/-! DEFINITION. One step around Execute (30_encoding.md R149): interrupt, fetch, match, privilege, extension
words, brief-word check, Execute, trace (60 R442, R445-R449). -/

namespace Sys2Proof.Machine

/-- Fetches `n` words at the cursor, which moves past each (10 R35; 20 R84). -/
def fetchWords : Nat → State → Except Fault (List Word × State)
  | 0, s => .ok ([], s)
  | n + 1, s =>
    match s.load .fetch s.cursor .w with
    | .error e => .error e
    | .ok (v, s1) =>
      match fetchWords n { s1 with cursor := s1.cursor + 2 } with
      | .error e => .error e
      | .ok (ws, s2) => .ok (v.setWidth 16 :: ws, s2)

/-- The exception of an opcode word no definition matches, by its top four bits (30 R147; 60 R437, R438). -/
def unmatchedKind (w : Word) : ExcKind :=
  if w.extractLsb' 12 4 = 0xA then .lineA
  else if w.extractLsb' 12 4 = 0xF then .lineF
  else .illegalInstruction

/-- What the step does with words that are not read as an instruction (30 R145-R147, R150, R153; 20 R97). -/
def State.reject (s : State) : Reject → Result
  | .truncated => .fault s.logicError
  | .unmatched w => s.raise (unmatchedKind w)
  | .unknownBehaviour w => s.refuse (.unknownBehaviour w)
  | .registryAmbiguity w => .fault (s.faulted (.registryAmbiguity w s.cfg.isa.tier))
  | .reservedExtension w e => s.refuse (.reservedExtension w e)
  | .badBrief => s.raise .addressError
  | .decodeLogicError w => .fault (s.faulted (.decodeLogicError w))

/-- The definition may run in the present mode: it is not privileged, or the mode is supervisor, or it is
HALT and `USER_HALT` holds (30 R149; 46 R400). -/
def State.mayRun (s : State) (op : Op) : Bool :=
  !op.row.privileged || s.supervisor || (op == .halt && s.cfg.userHalt)

/-- Fetches the EA extension words of the chosen definition, reads the instruction and runs it. -/
def State.runOp (run : Instr → State → Result) (op : Op) (w : Word) (is : List Word) (s : State) : Result :=
  withValue (fetchWords (op.row.eaWords w) s) fun es s1 =>
    match op.read w is es with
    | .error r => s1.reject r
    | .ok i => run i s1

/-- From the opcode word on: match, privilege, the instruction's extension words, the row they select, and
then the EA extension words (30 R146, R149; log 15). -/
def State.runWord (run : Instr → State → Result) (w : Word) (s : State) : Result :=
  match lookup s.cfg.isa w with
  | .unmatched => s.reject (if tierALongBranch s.cfg.isa w then .unknownBehaviour w else .unmatched w)
  | .ambiguous => s.reject (.registryAmbiguity w)
  | .found op =>
    if s.mayRun op then
      withValue (fetchWords op.row.form.extWords s) fun is s1 => s1.runOp run op w is
    else s.raise .privilegeViolation
  | .group ops =>
    withValue (fetchWords 1 s) fun is s1 =>
      match selectRow ops (is.headD 0) with
      | none => s1.reject (.reservedExtension w (is.headD 0))
      | some op => s1.runOp run op w is

/-- The trace exception after a completed instruction (60 R442): T was 1 when it was fetched, it raised no
exception and did not halt. -/
def traced (t : Bool) (r : Result) : Result :=
  match r with
  | .next s => if t && !s.afterException && s.runState != .halted then s.raise .trace else .next s
  | r => r

/-- The state in which an instruction's words are matched: the opcode word fetched (30 R149). -/
def State.opcodeFetched (s : State) : State := { s with cursor := s.cursor + 2, afterException := false }

/-- One instruction at an even `pc` (30 R149). -/
def State.runInstr (run : Instr → State → Result) (s : State) : Result :=
  withValue ({ s with cursor := s.pc }.load .fetch s.pc .w) fun v s1 =>
    traced s.tracing (s1.opcodeFetched.runWord run (v.setWidth 16))

/-- `IPL(t)` (60 R445). -/
def State.level (s : State) : BitVec 3 := s.ipl.headD 0

/-- The interrupt request of this step is acceptable: above the mask, or level 7 on its rising edge (60 R445). -/
def State.interruptDue (s : State) : Bool :=
  decide (s.intMask.toNat < s.level.toNat) || (s.level == 7 && s.iplPrev != 7)

/-- The request of this step has been read: it is `IPL(t-1)` of the next (60 R445; 70 R488). -/
def State.tick (s : State) : State := { s with ipl := s.ipl.tail, iplPrev := s.level }

/-- A double fault halts the context and enters no exception (60 R449). -/
def State.doubleFault (s : State) : Result := .next { s with runState := .halted }

/-- What a running context does in a step with no interrupt: an address error at an odd `pc`, a double fault
if that was a handler's first fetch, else one instruction (30 R149; 60 R439, R449). -/
def State.cycle (run : Instr → State → Result) (s : State) : Result :=
  if s.pc.getLsbD 0 then
    if s.afterException then s.doubleFault else s.raise .addressError
  else s.runInstr run

/-- One step over an Execute (30 R149): stuck with a fault or refusal mark, nothing when halted, else an
acceptable interrupt, else nothing when stopped, else one instruction. -/
def stepUsing (run : Instr → State → Result) (s : State) : Result :=
  match s.fault, s.refused with
  | some f, _ => .fault (s.faulted f)
  | none, some r => s.refuse r
  | none, none =>
    match s.runState with
    | .halted => .next s
    | .stopped => if s.interruptDue then s.tick.raise (.interrupt s.level) else .next s.tick
    | .running => if s.interruptDue then s.tick.raise (.interrupt s.level) else s.tick.cycle run

/-- Stores the words of a table row's number where the next instruction is fetched (30 R137, R138). -/
def State.storeCode (s : State) (nbits w : Nat) : State :=
  { s with mem := pokeBytes s.mem (spanAddrs s.pc 6) (bytesOfWords (tableWords nbits w)) }

end Sys2Proof.Machine
end

