-- ==== Sys2Proof/Machine/Step.lean ====
section
/-! DEFINITION. One step of the machine (30_encoding.md R149). -/

namespace Sys2Proof.Machine

/-- One step (30 R149; 70 R488). -/
def step (s : State) : Host.Outcome State Fault Refusal := stepUsing exec s

/-- The state with an instruction's words stored at `pc`, where step fetches its next instruction (log 7). -/
def State.withFetchWord (s : State) (nbits w : Nat) : State := s.storeCode nbits w

end Sys2Proof.Machine
end

