-- ==== Sys2Proof/Machine/Descriptor.lean ====
section
/-! DEFINITION. Operand descriptors with all their data (20_memory.md R90), as Decode produces them and Encode
takes them; the mnemonics and their condition spellings (30_encoding.md R148, R164). -/

namespace Sys2Proof.Machine

/-- The cache selector of CPUSHL (46 R403), which R90 gives no variant (log 26). -/
inductive CacheSel where
  | dc | ic | bc
  deriving DecidableEq, Repr

/-- Operand descriptors (R90). Displacements and values are unbounded here: Encode checks their ranges
(30 R161). -/
inductive Operand where
  | dn (n : RegNo)
  | an (n : RegNo)
  | ind (n : RegNo)
  | postInc (n : RegNo)
  | preDec (n : RegNo)
  | disp (n : RegNo) (d16 : Int)
  | index (n : RegNo) (d8 : Int) (xreg : GReg) (scale : Nat)
  | absW (a16 : Int)
  | absL (a32 : Long)
  | pcDisp (d16 : Int) (base : Long)
  | pcIndex (d8 : Int) (xreg : GReg) (scale : Nat) (base : Long)
  | imm (value : Int) (size : Size)
  | regList (mask : Word)
  | special (reg : SpecialReg)
  | relative (disp : Int) (target : Long)
  | regPair (dw dx : RegNo)
  | cache (sel : CacheSel)
  deriving DecidableEq, Repr

/-- The scale of a brief extension word as a number (20 R97). -/
def scaleNumber : Scale → Nat
  | .one => 1
  | .two => 2
  | .four => 4

/-- The descriptor of an effective address of an instruction at `addr`: the PC-relative base is the address
of the EA's extension word (R90, R100), and an immediate carries the size it is read at. -/
def Operand.ofEa (addr : Long) : Ea → Operand
  | .dn n => .dn n
  | .an n => .an n
  | .ind n => .ind n
  | .postInc n => .postInc n
  | .preDec n => .preDec n
  | .disp n d => .disp n d.toInt
  | .index n x => .index n x.d8.toInt x.xreg (scaleNumber x.scale)
  | .absW a => .absW a.toInt
  | .absL a => .absL a
  | .pcDisp d => .pcDisp d.toInt (addr + 2)
  | .pcIndex x => .pcIndex x.d8.toInt x.xreg (scaleNumber x.scale) (addr + 2)
  | .immB v => .imm v.toNat .b
  | .immW v => .imm v.toNat .w
  | .immL v => .imm v.toNat .l

/-- A branch operand: the displacement and the target (45 R360). -/
def Operand.branch (addr : Long) (disp : Long) : Operand := .relative disp.toInt (addr + 2 + disp)

/-- The mnemonic of Bcc with its condition (R148); BRA and BSR stand where T and F would. -/
def branchName : Cond → String
  | .t => "BRA"
  | .f => "BSR"
  | .hi => "BHI"
  | .ls => "BLS"
  | .cc => "BCC"
  | .cs => "BCS"
  | .ne => "BNE"
  | .eq => "BEQ"
  | .vc => "BVC"
  | .vs => "BVS"
  | .pl => "BPL"
  | .mi => "BMI"
  | .ge => "BGE"
  | .lt => "BLT"
  | .gt => "BGT"
  | .le => "BLE"

/-- The mnemonic of Scc with its condition (R148; 45 R367). -/
def setName : Cond → String
  | .t => "ST"
  | .f => "SF"
  | .hi => "SHI"
  | .ls => "SLS"
  | .cc => "SCC"
  | .cs => "SCS"
  | .ne => "SNE"
  | .eq => "SEQ"
  | .vc => "SVC"
  | .vs => "SVS"
  | .pl => "SPL"
  | .mi => "SMI"
  | .ge => "SGE"
  | .lt => "SLT"
  | .gt => "SGT"
  | .le => "SLE"

/-- The alternate mnemonics of conditions (R164). -/
def branchAlternate : Cond → List String
  | .cc => ["BHS"]
  | .cs => ["BLO"]
  | _ => []

/-- The alternate mnemonics of conditions (R164). -/
def setAlternate : Cond → List String
  | .cc => ["SHS"]
  | .cs => ["SLO"]
  | _ => []

/-- The sixteen conditions in the order of their codes (10 R54). -/
def allConds : List Cond :=
  [.t, .f, .hi, .ls, .cc, .cs, .ne, .eq, .vc, .vs, .pl, .mi, .ge, .lt, .gt, .le]

/-- A conditional row: Bcc or Scc. -/
def Form.conditional : Form → Bool
  | .condDisp8 | .condDisp16 | .condDisp32 | .condReg => true
  | _ => false

/-- A row of a branch, whose size Encode may choose (R160). -/
def Form.relative : Form → Bool
  | .condDisp8 | .condDisp16 | .condDisp32 | .disp8 | .disp16 | .disp32 => true
  | _ => false

/-- The register operand of a row is an address register (41 to 46, the operand lists). -/
def opUsesAn : Op → Bool
  | .moveaW | .moveaL | .lea | .adda | .suba | .cmpaW | .cmpaL | .link | .unlk => true
  | .moveToUsp | .moveFromUsp => true
  | _ => false

/-- The size of a row's immediate or quick operand as its descriptor carries it (log 27). -/
def opImmSize : Op → Size
  | .cmpiB | .btstImm | .bchgImm | .bclrImm | .bsetImm | .trap | .moveToCcr => .b
  | .cmpiW | .link | .stop | .strldsr | .tpfW => .w
  | op => op.row.eaSize

end Sys2Proof.Machine
end

