-- ==== Sys2Proof/Machine/Disasm.lean ====
section
/-! DEFINITION. The decoded-instruction value that disassembly produces, read-only (30_encoding.md R147, R148;
20_memory.md R104; 70 R489 `Decode(addr)`). -/

namespace Sys2Proof.Machine

/-- A decoded instruction (R148). -/
structure Decoded where
  mnemonic : String
  size : Option Size
  word : Word
  exts : List Word
  /-- The total length in bytes. -/
  length : Nat
  op1 : Option Operand
  op2 : Option Operand
  deriving DecidableEq, Repr

/-- What disassembly answers. -/
inductive Disassembly where
  | decoded (d : Decoded)
  /-- `Unrecognized(w)`, length 2 bytes (R147; log 28). -/
  | unrecognized (w : Word)
  /-- A word of the instruction is not mapped (20 R86). -/
  | unmapped (addr : Long)
  /-- A word of the instruction is a device's: reading it would be a device access (20 R87, R104; log 28). -/
  | device (addr : Long)
  deriving DecidableEq, Repr

/-- How many bytes the disassembler moves on (R147, R148). -/
def Disassembly.length : Disassembly → Nat
  | .decoded d => d.length
  | _ => 2

/-- The mnemonic of an instruction, spelling the condition (R148); its row's otherwise, the long names of the moves
from and to SR, CCR and USP among them (DESIGN CHOICE, log 26). -/
def Instr.name (i : Instr) : String :=
  match i.args with
  | .condDisp8 c _ => branchName c
  | .condDisp16 c _ => branchName c
  | .condDisp32 c _ => branchName c
  | .condReg c _ => setName c
  | _ => i.row.mnemonic

/-- The destination of a bit instruction is a data register (44 R334). -/
def Ea.isDn : Ea → Bool
  | .dn _ => true
  | _ => false

/-- The size tag of an instruction: a bit instruction is long on Dn and byte elsewhere (R148; 44 R334). -/
def Instr.sizeTag (i : Instr) : Option Size :=
  match i.row.sizes, i.args with
  | [sz], _ => some sz
  | [_, _], .regEa _ dst => some (if Ea.isDn dst then .l else .b)
  | [_, _], .bitEa _ dst => some (if Ea.isDn dst then .l else .b)
  | _, _ => none

/-- The register operand of a row. -/
def regOperand (op : Op) (n : RegNo) : Operand := if opUsesAn op then .an n else .dn n

/-- An unsigned immediate operand of a row. -/
def immOperand (op : Op) (v : Nat) : Operand := .imm v (opImmSize op)

/-- The operands of an F-EA row, source first (41 to 46, the operand lists). -/
def eaOperands (op : Op) (addr : Long) (e : Ea) : Option Operand × Option Operand :=
  match op, e with
  | .moveToSr, _ => (some (.ofEa addr e), some (.special .sr))
  | .moveToCcr, .immW v => (some (.imm (v.extractLsb' 0 8).toNat .b), some (.special .ccr))
  | .moveToCcr, _ => (some (.ofEa addr e), some (.special .ccr))
  | _, _ => (some (.ofEa addr e), none)

/-- The operands of a one-register row, source first (41 to 46, the operand lists). -/
def regOperands (op : Op) (n : RegNo) : Option Operand × Option Operand :=
  match op with
  | .moveFromSr => (some (.special .sr), some (.dn n))
  | .moveFromCcr => (some (.special .ccr), some (.dn n))
  | .moveToUsp => (some (.an n), some (.special .usp))
  | .moveFromUsp => (some (.special .usp), some (.an n))
  | .cpushlDc => (some (.cache .dc), some (.ind n))
  | .cpushlIc => (some (.cache .ic), some (.ind n))
  | .cpushlBc => (some (.cache .bc), some (.ind n))
  | .intouch => (some (.ind n), none)
  | _ => (some (regOperand op n), none)

/-- A quick immediate as a value: MOV3Q reads 0 as -1, ADDQ and SUBQ as 8 (R137). -/
def quickOperand (op : Op) (q : BitVec 3) : Operand :=
  .imm (if op = .mov3q then (mov3qValue q).toInt else quickValue q) .l

/-- The operand descriptors of an instruction at `addr`, source first (R148). -/
def Instr.operands (i : Instr) (addr : Long) : Option Operand × Option Operand :=
  match i.args with
  | .moveEa src dst => (some (.ofEa addr src), some (.ofEa addr dst))
  | .eaReg src x => (some (.ofEa addr src), some (regOperand i.op x))
  | .regEa y dst => (some (.dn y), some (.ofEa addr dst))
  | .quick8 d x => (some (.imm d.toInt .l), some (.dn x))
  | .quickEa q dst => (some (quickOperand i.op q), some (.ofEa addr dst))
  | .shiftImm c x => (some (.imm (quickValue c) .l), some (.dn x))
  | .maskEa m dst => (some (.regList m), some (.ofEa addr dst))
  | .eaMask src m => (some (.ofEa addr src), some (.regList m))
  | .ea e => eaOperands i.op addr e
  | .reg x => regOperands i.op x
  | .regDisp y d => (some (regOperand i.op y), some (.imm d.toInt .w))
  | .immBReg v x => (some (immOperand i.op v.toNat), some (.dn x))
  | .immWReg v x => (some (immOperand i.op v.toNat), some (.dn x))
  | .immReg v x => (some (immOperand i.op v.toNat), some (.dn x))
  | .regReg y x => (some (.dn y), some (.dn x))
  | .shiftReg y x => (some (.dn y), some (.dn x))
  | .mul src x => (some (.ofEa addr src), some (.dn x))
  | .div src x => (some (.ofEa addr src), some (.dn x))
  | .rem src w x => (some (.ofEa addr src), some (.regPair w x))
  | .bitEa n dst => (some (immOperand i.op n.toNat), some (.ofEa addr dst))
  | .condDisp8 _ d => (some (.branch addr (d.signExtend 32)), none)
  | .condDisp16 _ d => (some (.branch addr (d.signExtend 32)), none)
  | .condDisp32 _ d => (some (.branch addr d), none)
  | .disp8 d => (some (.branch addr (d.signExtend 32)), none)
  | .disp16 d => (some (.branch addr (d.signExtend 32)), none)
  | .disp32 d => (some (.branch addr d), none)
  | .condReg _ x => (some (.dn x), none)
  | .fixed => (none, none)
  | .word v => (some (immOperand i.op v.toNat), none)
  | .long v => (some (immOperand i.op v.toNat), none)
  | .wordWord _ v => (some (immOperand i.op v.toNat), none)
  | .wordEa _ e => (some (.ofEa addr e), none)
  | .vector v => (some (immOperand i.op v.toNat), none)
  | .ctrl y code => (some (match y with | .d n => .dn n | .a n => .an n), some (.special (.control code)))

/-- The decoded value of an instruction read from `words` at `addr` (R148). -/
def Decoded.of (i : Instr) (addr : Long) (words : List Word) : Decoded where
  mnemonic := Instr.name i
  size := Instr.sizeTag i
  word := words.headD 0
  exts := words.tail
  length := 2 * words.length
  op1 := (Instr.operands i addr).1
  op2 := (Instr.operands i addr).2

/-- Disassembly of words already read, up to three; `more` reads the next one where the instruction goes on
(R130, R148). -/
def disassembleWords (isa : Isa) (addr : Long) (words : List Word) (more : Disassembly) : Disassembly :=
  match decodeWords isa words with
  | .ok (i, n) => .decoded (.of i addr (words.take n))
  | .error .truncated => more
  | .error _ => .unrecognized (words.headD 0)

/-- The word at `addr` for disassembly, read without any effect (20 R104). An odd `addr` is not told apart: the check
of 20 R84 is the step's (DESIGN CHOICE, log 35). -/
def State.wordAt (s : State) (addr : Long) : Except Disassembly Word :=
  if !s.mappedAt addr 2 then .error (.unmapped addr)
  else if s.ioAt addr 2 then .error (.device addr)
  else .ok ((s.peek addr .w).setWidth 16)

/-- Reads one more word and disassembles, at most `n` more words, at an odd address as at an even one (DESIGN CHOICE,
log 35). -/
def State.disassembleFrom (s : State) (addr : Long) : Nat → List Word → Disassembly
  | 0, words => .unrecognized (words.headD 0)
  | n + 1, words =>
    match s.wordAt (addr + BitVec.ofNat 32 (2 * words.length)) with
    | .error d => d
    | .ok w => disassembleWords s.cfg.isa addr (words ++ [w]) (s.disassembleFrom addr n (words ++ [w]))

/-- `Decode(addr)`: disassembly at an address; it changes nothing (R148; 70 R489). -/
def State.disassemble (s : State) (addr : Long) : Disassembly := s.disassembleFrom addr 3 []

end Sys2Proof.Machine
end

