-- ==== Sys2Proof/Machine/Assembler.lean ====
section
/-! DEFINITION. The encoder of 30_encoding.md R154-R165: Encode, CalcSize and IsRelativeOffsetValid over
operand descriptors. -/

namespace Sys2Proof.Machine

/-- Why Encode fails (R158), in rising order of how far the operands got (log 29). -/
inductive EncodeReason where
  | unknownMnemonic
  | sizeNotPermitted
  | sizeRequired
  | modeNotLegal
  | valueOutOfRange
  | combinationNotLegal
  | branchOffsetInvalid
  deriving DecidableEq, Repr

/-- `EncodeError(operand, reason)`: the operand is 1 or 2, or none for the whole instruction (R154, R158). -/
structure EncodeError where
  operand : Option Nat
  reason : EncodeReason
  deriving DecidableEq, Repr

/-- An error about one operand. -/
def operandError {α : Type} (k : Nat) (r : EncodeReason) : Except EncodeError α :=
  .error { operand := some k, reason := r }

/-- The value is outside the range of an operand. -/
def outOfRange {α : Type} (k : Nat) : Except EncodeError α := operandError k .valueOutOfRange

/-- The descriptor's tag is not one the row accepts, or the operand is missing or one too many. DESIGN CHOICE (log 29):
R158 lists no reason for the latter. -/
def badMode {α : Type} (k : Nat) : Except EncodeError α := operandError k .modeNotLegal

/-- The addressing mode of a descriptor that is one (20 R90). -/
def Operand.mode : Operand → Option Mode
  | .dn _ => some .dn
  | .an _ => some .an
  | .ind _ => some .ind
  | .postInc _ => some .postInc
  | .preDec _ => some .preDec
  | .disp _ _ => some .disp
  | .index _ _ _ _ => some .index
  | .absW _ => some .absW
  | .absL _ => some .absL
  | .pcDisp _ _ => some .pcDisp
  | .pcIndex _ _ _ _ => some .pcIndex
  | .imm _ _ => some .imm
  | .regList _ | .special _ | .relative _ _ | .regPair _ _ | .cache _ => none

/-- An integer in a range, as bits (R161). -/
def inRange {w : Nat} (k : Nat) (lo hi v : Int) : Except EncodeError (BitVec w) :=
  if lo ≤ v ∧ v ≤ hi then .ok (BitVec.ofInt w v) else outOfRange k

/-- A signed 16-bit displacement (R161). -/
def disp16Of (k : Nat) (v : Int) : Except EncodeError Word := inRange k (-32768) 32767 v

/-- A scale of 1, 2 or 4 (R161). -/
def scaleOf (k : Nat) : Nat → Except EncodeError Scale
  | 1 => .ok .one
  | 2 => .ok .two
  | 4 => .ok .four
  | _ => outOfRange k

/-- An index part: the displacement, then the scale (R161). -/
def briefOf (k : Nat) (d8 : Int) (xreg : GReg) (scale : Nat) : Except EncodeError Brief :=
  match (inRange k (-128) 127 d8 : Except EncodeError Byte), scaleOf k scale with
  | .ok d, .ok sc => .ok { xreg := xreg, scale := sc, d8 := d }
  | .error e, _ => .error e
  | _, .error e => .error e

/-- The effective address of a descriptor at an operand size, with the value ranges of R161 (R155). -/
def eaOf (k : Nat) (sz : Size) : Operand → Except EncodeError Ea
  | .dn n => .ok (.dn n)
  | .an n => .ok (.an n)
  | .ind n => .ok (.ind n)
  | .postInc n => .ok (.postInc n)
  | .preDec n => .ok (.preDec n)
  | .disp n d => (disp16Of k d).map fun d => .disp n d
  | .index n d x sc => (briefOf k d x sc).map fun b => .index n b
  | .absW a => (disp16Of k a).map fun a => .absW a
  | .absL a => .ok (.absL a)
  | .pcDisp d _ => (disp16Of k d).map fun d => .pcDisp d
  | .pcIndex d x sc _ => (briefOf k d x sc).map fun b => .pcIndex b
  | .imm v vsz =>
    if vsz ≠ sz then badMode k
    else
      match sz with
      | .b => (inRange k (-128) 255 v).map fun b => .immB b
      | .w => (inRange k (-32768) 65535 v).map fun b => .immW b
      | .l => (inRange k (-2147483648) 4294967295 v).map fun b => .immL b
  | .regList _ | .special _ | .relative _ _ | .regPair _ _ | .cache _ => badMode k

/-- A descriptor that must be an effective address of a legal set (R155, R158). -/
def eaIn (k : Nat) (set : Option ModeSet) (sz : Size) (o : Option Operand) : Except EncodeError Ea :=
  match o, set with
  | some o, some set =>
    match Operand.mode o with
    | some m => if set.has m then eaOf k sz o else badMode k
    | none => badMode k
  | _, _ => badMode k

/-- A descriptor that must be the row's register. -/
def regIn (k : Nat) (usesAn : Bool) : Option Operand → Except EncodeError RegNo
  | some (.dn n) => if usesAn then badMode k else .ok n
  | some (.an n) => if usesAn then .ok n else badMode k
  | _ => badMode k

/-- A descriptor that must be an immediate of a size and in a range (R161). -/
def immIn {w : Nat} (k : Nat) (sz : Size) (lo hi : Int) : Option Operand → Except EncodeError (BitVec w)
  | some (.imm v vsz) => if vsz = sz then inRange k lo hi v else badMode k
  | _ => badMode k

/-- A quick immediate or shift count in 1 to 8, with 8 emitted as 0 (R161). -/
def quickIn (k : Nat) (o : Option Operand) : Except EncodeError (BitVec 3) := immIn k .l 1 8 o

/-- The quick immediate of MOV3Q: -1 or 1 to 7, with -1 emitted as 0 (R161). -/
def mov3qIn (k : Nat) : Option Operand → Except EncodeError (BitVec 3)
  | some (.imm v .l) => if v = -1 then .ok 0 else inRange k 1 7 v
  | _ => badMode k

/-- A descriptor that must be absent. DESIGN CHOICE (log 29): R158 lists no reason for a superfluous operand, nor
for a missing one; the model answers `ModeNotLegal` of that operand. -/
def absent (k : Nat) : Option Operand → Except EncodeError Unit
  | none => .ok ()
  | some _ => badMode k

/-- A descriptor that must be the given one. -/
def exactly (k : Nat) (want : Operand) (o : Option Operand) : Except EncodeError Unit :=
  if o = some want then .ok () else badMode k

/-- Both operands accepted; the first one's error comes first (R155). -/
def both {α β γ : Type} (a : Except EncodeError α) (b : Except EncodeError β) (f : α → β → γ) :
    Except EncodeError γ :=
  match a, b with
  | .ok x, .ok y => .ok (f x y)
  | .error e, _ => .error e
  | _, .error e => .error e

/-- MOVE: both operands are legal, and so is their combination (41 R200). -/
def moveArgs (r : Row) (tier : Tier) (op1 op2 : Option Operand) : Except EncodeError Args :=
  match eaIn 1 r.ea r.eaSize op1, eaIn 2 r.dst r.eaSize op2 with
  | .ok src, .ok dst =>
    if moveCombo tier r.eaSize src.mode dst.mode then .ok (.moveEa src dst)
    else .error { operand := none, reason := .combinationNotLegal }
  | .error e, _ => .error e
  | _, .error e => .error e

/-- REM.L: the destination is a register pair of two registers (43 R310). -/
def remArgs (r : Row) (op1 op2 : Option Operand) : Except EncodeError Args :=
  match eaIn 1 r.ea r.eaSize op1, op2 with
  | .error e, _ => .error e
  | .ok src, some (.regPair w x) =>
    if w = x then .error { operand := none, reason := .combinationNotLegal } else .ok (.rem src w x)
  | .ok _, _ => badMode 2

/-- The operands of an F-EA row (41 to 46, the operand lists). MOVE to CCR reads one word, whose low byte
is the immediate (46 R394). -/
def eaArgs (op : Op) (op1 op2 : Option Operand) : Except EncodeError Args :=
  match op with
  | .moveToSr => both (eaIn 1 op.row.ea .w op1) (exactly 2 (.special .sr) op2) fun e _ => .ea e
  | .moveToCcr =>
    both (eaIn 1 op.row.ea .b op1) (exactly 2 (.special .ccr) op2) fun e _ =>
      match e with
      | .immB v => .ea (.immW (v.setWidth 16))
      | e => .ea e
  | _ => both (eaIn 1 op.row.ea op.row.eaSize op1) (absent 2 op2) fun e _ => .ea e

/-- The register of a descriptor `(An)`. -/
def indIn (k : Nat) : Option Operand → Except EncodeError RegNo
  | some (.ind n) => .ok n
  | _ => badMode k

/-- The operands of a one-register row (41 to 46, the operand lists). -/
def regArgs (op : Op) (op1 op2 : Option Operand) : Except EncodeError Args :=
  match op with
  | .moveFromSr => both (exactly 1 (.special .sr) op1) (regIn 2 false op2) fun _ n => .reg n
  | .moveFromCcr => both (exactly 1 (.special .ccr) op1) (regIn 2 false op2) fun _ n => .reg n
  | .moveToUsp => both (regIn 1 true op1) (exactly 2 (.special .usp) op2) fun n _ => .reg n
  | .moveFromUsp => both (exactly 1 (.special .usp) op1) (regIn 2 true op2) fun _ n => .reg n
  | .cpushlDc => both (exactly 1 (.cache .dc) op1) (indIn 2 op2) fun _ n => .reg n
  | .cpushlIc => both (exactly 1 (.cache .ic) op1) (indIn 2 op2) fun _ n => .reg n
  | .cpushlBc => both (exactly 1 (.cache .bc) op1) (indIn 2 op2) fun _ n => .reg n
  | .intouch => both (indIn 1 op1) (absent 2 op2) fun n _ => .reg n
  | _ => both (regIn 1 (opUsesAn op) op1) (absent 2 op2) fun n _ => .reg n

/-- A general register of either bank. -/
def gregIn (k : Nat) : Option Operand → Except EncodeError GReg
  | some (.dn n) => .ok (.d n)
  | some (.an n) => .ok (.a n)
  | _ => badMode k

/-- A control register that exists (46 R397). -/
def ctrlIn (k : Nat) (codes : List (BitVec 12)) : Option Operand → Except EncodeError (BitVec 12)
  | some (.special (.control c)) => if c ∈ codes then .ok c else outOfRange k
  | _ => badMode k

/-- A register mask; every mask is accepted (41 R207). -/
def maskIn (k : Nat) : Option Operand → Except EncodeError Word
  | some (.regList m) => .ok m
  | _ => badMode k

/-- The displacement of a branch operand. -/
def relIn (k : Nat) : Option Operand → Except EncodeError Int
  | some (.relative d _) => .ok d
  | _ => badMode k

/-- `IsRelativeOffsetValid(disp, size)` (R160). DESIGN CHOICE (log 29): R160 gives size L no range, and the
displacement of a descriptor is unbounded here; the model asks of it to be a signed 32-bit number. -/
def relativeOffsetValid (isa : Isa) (disp : Int) : Size → Bool
  | .b => decide (disp % 2 = 0) && decide (disp ≠ 0) && decide (-128 ≤ disp) && decide (disp ≤ 127) &&
      decide (disp ≠ -1)
  | .w => decide (disp % 2 = 0) && decide (disp ≠ 0) && decide (-32768 ≤ disp) && decide (disp ≤ 32767)
  | .l => decide (disp % 2 = 0) && decide (disp ≠ 0) && decide (Tier.b.rank ≤ isa.tier.rank) &&
      decide (-2147483648 ≤ disp) && decide (disp ≤ 2147483647)

/-- A branch at its row's size (R160). -/
def branchArgs (isa : Isa) (op : Op) (cond : Cond) (o : Option Operand) : Except EncodeError Args :=
  match relIn 1 o with
  | .error e => .error e
  | .ok d =>
    if relativeOffsetValid isa d (op.row.sizes.headD .b) then
      match op.row.form with
      | .condDisp8 => .ok (.condDisp8 cond (BitVec.ofInt 8 d))
      | .condDisp16 => .ok (.condDisp16 cond (BitVec.ofInt 16 d))
      | .condDisp32 => .ok (.condDisp32 cond (BitVec.ofInt 32 d))
      | .disp8 => .ok (.disp8 (BitVec.ofInt 8 d))
      | .disp16 => .ok (.disp16 (BitVec.ofInt 16 d))
      | _ => .ok (.disp32 (BitVec.ofInt 32 d))
    else operandError 1 .branchOffsetInvalid

/-- The operand fields a row reads from its descriptors, or why it does not accept them (R155, R156, R161). -/
def argsOf (c : Config) (op : Op) (cond : Cond) (op1 op2 : Option Operand) : Except EncodeError Args :=
  let r := op.row
  match r.form with
  | .moveEa => moveArgs r c.isa.tier op1 op2
  | .eaReg => both (eaIn 1 r.ea r.eaSize op1) (regIn 2 (opUsesAn op) op2) fun e x => .eaReg e x
  | .regEa => both (regIn 1 false op1) (eaIn 2 r.ea r.eaSize op2) fun y e => .regEa y e
  | .quick8 => both (immIn 1 .l (-128) 127 op1) (regIn 2 false op2) fun d x => .quick8 d x
  | .quickEa =>
    both (if op = .mov3q then mov3qIn 1 op1 else quickIn 1 op1) (eaIn 2 r.ea r.eaSize op2) fun q e =>
      .quickEa q e
  | .shiftImm => both (quickIn 1 op1) (regIn 2 false op2) fun q x => .shiftImm q x
  | .shiftReg => both (regIn 1 false op1) (regIn 2 false op2) fun y x => .shiftReg y x
  | .maskEa => both (maskIn 1 op1) (eaIn 2 r.ea r.eaSize op2) fun m e => .maskEa m e
  | .eaMask => both (eaIn 1 r.ea r.eaSize op1) (maskIn 2 op2) fun e m => .eaMask e m
  | .ea => eaArgs op op1 op2
  | .reg => regArgs op op1 op2
  | .regDisp => both (regIn 1 true op1) (immIn 2 .w (-32768) 32767 op2) fun y d => .regDisp y d
  | .immBReg => both (immIn 1 .b (-128) 255 op1) (regIn 2 false op2) fun v x => .immBReg v x
  | .immWReg => both (immIn 1 .w (-32768) 65535 op1) (regIn 2 false op2) fun v x => .immWReg v x
  | .immReg => both (immIn 1 .l (-2147483648) 4294967295 op1) (regIn 2 false op2) fun v x => .immReg v x
  | .regReg => both (regIn 1 false op1) (regIn 2 false op2) fun y x => .regReg y x
  | .mul => both (eaIn 1 r.ea r.eaSize op1) (regIn 2 false op2) fun e x => .mul e x
  | .div => both (eaIn 1 r.ea r.eaSize op1) (regIn 2 false op2) fun e x => .div e x
  | .rem => remArgs r op1 op2
  | .bitEa => both (immIn 1 .b 0 255 op1) (eaIn 2 r.ea r.eaSize op2) fun n e => .bitEa n e
  | .condDisp8 | .condDisp16 | .condDisp32 | .disp8 | .disp16 | .disp32 =>
    both (branchArgs c.isa op cond op1) (absent 2 op2) fun a _ => a
  | .condReg => both (regIn 1 false op1) (absent 2 op2) fun x _ => .condReg cond x
  | .fixed => both (absent 1 op1) (absent 2 op2) fun _ _ => .fixed
  | .word => both (immIn 1 .w (-32768) 65535 op1) (absent 2 op2) fun v _ => .word v
  | .long => both (immIn 1 .l (-2147483648) 4294967295 op1) (absent 2 op2) fun v _ => .long v
  | .wordWord => both (immIn 1 .w (-32768) 65535 op1) (absent 2 op2) fun v _ => .wordWord 0x46FC v
  | .wordEa => both (eaIn 1 r.ea r.eaSize op1) (absent 2 op2) fun e _ => .wordEa 0x0003 e
  | .vector => both (immIn 1 .b 0 15 op1) (absent 2 op2) fun v _ => .vector v
  | .ctrl => both (gregIn 1 op1) (ctrlIn 2 c.controlRegs op2) fun y code => .ctrl y code

/-- The size tag a row has with these operand fields: a bit instruction is long on Dn and byte elsewhere
(44 R334). -/
def sizeAccepts (r : Row) (size : Option Size) (a : Args) : Bool :=
  match r.sizes, size, a with
  | [_, _], some sz, .regEa _ (.dn _) => sz == .l
  | [_, _], some sz, .bitEa _ (.dn _) => sz == .l
  | [_, _], some sz, _ => sz == .b
  | _, _, _ => true

/-- The conditions under which a row answers to a mnemonic (R155, R164). The moves from and to SR, CCR and USP answer
to their long names alone (DESIGN CHOICE, log 26). -/
def rowConds (op : Op) (name : String) : List Cond :=
  match op.row.form with
  | .condReg => allConds.filter fun c => setName c == name || (setAlternate c).contains name
  | .condDisp8 | .condDisp16 | .condDisp32 =>
    allConds.filter fun c => c.branches && (branchName c == name || (branchAlternate c).contains name)
  | _ => if op.row.mnemonic == name || op.row.alts.contains name then [.t] else []

/-- A candidate: a row and its condition. -/
structure Candidate where
  op : Op
  cond : Cond
  deriving DecidableEq, Repr

/-- The rows visible in the active tier that answer to a mnemonic (R155; 43 R312). -/
def candidatesOf (isa : Isa) (name : String) : List Candidate :=
  (registry.filter fun op => op.row.visible isa).flatMap fun op =>
    (rowConds op name).map fun c => { op := op, cond := c }

/-- The sizes a list of candidates permits, each once. -/
def permittedSizes (cs : List Candidate) : List Size :=
  [Size.b, Size.w, Size.l].filter fun sz => cs.any fun c => c.op.row.sizes.contains sz

/-- The candidates of a requested or implied size (R163); a branch without a size keeps them all (R160). -/
def sizedCandidates (cs : List Candidate) (size : Option Size) :
    Except EncodeError (List Candidate × Option Size) :=
  match size with
  | some sz =>
    match cs.filter fun c => c.op.row.sizes.contains sz with
    | [] => .error { operand := none, reason := .sizeNotPermitted }
    | cs => .ok (cs, some sz)
  | none =>
    match cs.filter fun c => c.op.row.sizes.isEmpty with
    | [] =>
      if cs.all fun c => Form.relative c.op.row.form then .ok (cs, none)
      else
        match permittedSizes cs with
        | [sz] => .ok (cs, some sz)
        | _ => .error { operand := none, reason := .sizeRequired }
    | unsized => .ok (unsized, none)

/-- The instruction a candidate reads from the operands, or why it reads none (R155). DESIGN CHOICE (log 29): the spec
does not say which reason applies to a bit instruction with the other of its two sizes (44 R334); the model answers
`ModeNotLegal` of operand 2. -/
def Candidate.build (c : Candidate) (cfg : Config) (size : Option Size) (op1 op2 : Option Operand) :
    Except EncodeError Instr :=
  match argsOf cfg c.op c.cond op1 op2 with
  | .error e => .error e
  | .ok a =>
    if sizeAccepts c.op.row size a then
      match Instr.make c.op a with
      | some i => .ok i
      | none => badMode 1
    else badMode 2

/-- How far the operands got before an error: the operand, then the reason (R155; log 29). -/
def EncodeError.reach (e : EncodeError) : Nat :=
  10 * (e.operand.getD 3) +
    match e.reason with
    | .modeNotLegal => 0
    | .valueOutOfRange => 1
    | _ => 2

/-- The first candidate that stays, or the error that reached furthest: the one naming the first operand that
no candidate accepted (R155). -/
def firstBuilt (cfg : Config) (size : Option Size) (op1 op2 : Option Operand) :
    List Candidate → EncodeError → Except EncodeError Instr
  | [], e => .error e
  | c :: cs, e =>
    match c.build cfg size op1 op2 with
    | .ok i => .ok i
    | .error e' => firstBuilt cfg size op1 op2 cs (if EncodeError.reach e < EncodeError.reach e' then e' else e)

/-- The instruction of `Encode(mnemonic, size, op1, op2)` (R154, R155). -/
def assemble (cfg : Config) (name : String) (size : Option Size) (op1 op2 : Option Operand) :
    Except EncodeError Instr :=
  match candidatesOf cfg.isa name with
  | [] => .error { operand := none, reason := .unknownMnemonic }
  | cs =>
    match sizedCandidates cs size with
    | .error e => .error e
    | .ok (cs, sz) => firstBuilt cfg sz op1 op2 cs { operand := some 1, reason := .modeNotLegal }

/-- `Encode(mnemonic, size, op1, op2)`: the words of the instruction (R154, R156). -/
def assembleWords (cfg : Config) (name : String) (size : Option Size) (op1 op2 : Option Operand) :
    Except EncodeError (List Word) :=
  (assemble cfg name size op1 op2).map encode

/-- `CalcSize(mnemonic, size, op1, op2)`: twice the length of R135 (R157). -/
def calcSize (cfg : Config) (name : String) (size : Option Size) (op1 op2 : Option Operand) :
    Except EncodeError Nat :=
  (assemble cfg name size op1 op2).map Instr.size

end Sys2Proof.Machine
end

