-- ==== Sys2Proof/Machine/Resolve.lean ====
section
/-! DEFINITION. `Resolve` over the descriptors of 20_memory.md R90 as they stand, also of an instruction at another
address (R91, R104). -/

namespace Sys2Proof.Machine

/-- The effective address a descriptor stands for; none for a register list, a branch target, a register pair,
a special register, and a value that its field does not hold (R90; 30 R161). -/
def Operand.ea (o : Operand) : Option Ea :=
  let sz := match o with
    | .imm _ sz => sz
    | _ => .l
  match eaOf 1 sz o with
  | .ok e => some e
  | .error _ => none

/-- The base a PC-relative descriptor carries (R90, R100). -/
def Operand.base : Operand → Long
  | .pcDisp _ base => base
  | .pcIndex _ _ _ base => base
  | _ => 0

/-- `Resolve(desc, sz, side_effects)`: the location, and the state after the address-register change of
`(An)+` or `-(An)`; none for a descriptor that names no location (R91). -/
def State.resolveDesc (s : State) (effects : Bool) (sz : Size) (o : Operand) : Option (Loc × State) :=
  match o with
  | .special r => some (.special r, s)
  | o => (Operand.ea o).map fun e =>
    (s.locateFrom (Operand.base o) sz e, if effects then s.autoUpdate sz e else s)

/-- `Resolve(desc, sz, false)`, the form of Decode: where a descriptor points (R104). -/
def State.describe (s : State) (sz : Size) (o : Operand) : Option Loc := (s.resolveDesc false sz o).map (·.1)

end Sys2Proof.Machine
end

