-- ==== Sys2Proof/Machine/HostAccess.lean ====
section
/-! DEFINITION. What the host may do to a context between steps (70_reset_and_hazards.md R489, R484), and the
context after an outcome (00_scope.md R11; 10_state.md R43). -/

namespace Sys2Proof.Machine

/-- The context after a step's outcome: a fault or a refusal leaves the state as it was when it hit and sets
its mark, which stays (00 R11; 10 R43; 41 R215; log 11). An outcome with no state leaves the one before. -/
def State.settle (s : State) : Result → State
  | .next t => t
  | .fault (.hit why left) => { left with fault := some why }
  | .refused (.stop why left) => { left with refused := some why }
  | .refused _ => s

/-- Host read of a general register (R489). -/
def hostReadReg (s : State) (r : GReg) : Long := s.reg r

/-- Host write of a general register (R489). -/
def hostWriteReg (s : State) (r : GReg) (v : Long) : State := s.setReg r v

/-- Host read of SR as a packed 16-bit value (R489). -/
def hostReadSr (s : State) : Word := s.sr

/-- Host write of SR, through the mask of 46 R390 (R489). -/
def hostWriteSr (s : State) (v : Word) : State := s.setSr v

/-- Host read of the user-stack-pointer shadow (R489): USP in both modes. In user mode 10 R32's "inactive one" would
be SSP (DESIGN CHOICE, log 34). -/
def hostReadUsp (s : State) : Long := s.userSp

/-- Host write of the user-stack-pointer shadow (R489): USP in both modes (DESIGN CHOICE, log 34). -/
def hostWriteUsp (s : State) (v : Long) : State := s.setUserSp v

/-- Host read of a control register by its code, none for a code that does not exist (R489; 10 R44). OTHER_A7 is
USP in user mode too (DESIGN CHOICE, log 34). -/
def hostReadControl (s : State) (code : BitVec 12) : Option Long :=
  if code ∈ s.cfg.controlRegs then some (s.control code) else none

/-- Host write of a control register by its code, none for a code that does not exist (R489; 10 R44). OTHER_A7 is
USP in user mode too (DESIGN CHOICE, log 34). -/
def hostWriteControl (s : State) (code : BitVec 12) (v : Long) : Option State :=
  if code ∈ s.cfg.controlRegs then some (s.setControl code v) else none

/-- Host read of memory (R489; 20 R81). -/
def hostReadMem (s : State) (a : Long) (sz : Size) : Except Fault (Long × State) := s.load .read a sz

/-- Host write of memory (R489; 20 R82). -/
def hostWriteMem (s : State) (a : Long) (sz : Size) (v : Long) : Except Fault State := s.store a sz v

/-- `Reset()`: reset again with the context's parameters, an image and drawn values; the draws already used
are not used again (R484; 00 R12). -/
def hostReset (s : State) (image : Memory) (r : ResetDraws) : State :=
  { State.resetWith s.cfg image r with drawCount := s.drawCount }

/-- Presents the request levels to come, one per step (60 R445; log 9). -/
def hostRequest (s : State) (levels : List (BitVec 3)) : State := { s with ipl := levels }

end Sys2Proof.Machine
end

