-- ==== Sys2Proof/Safety.lean ====
section
/-! DEFINITION. The terms statements use: a sound state, a safe run, an operand that can be read or written,
what reading and writing it leave, and the parts of the state that stay. -/

namespace Sys2Proof.Machine

/-- The invariant of the machine's data: memory and the control registers in canonical form (20 R80), the
reserved bits of SR 0 (10 R39), VBR[19:0] 0 (10 R45), and VBR and OTHER_A7 kept outside the stored control
registers (10 R44). -/
def State.sound (s : State) : Bool :=
  s.mem.wf && ctrlWf s.ctrl && s.sr &&& ~~~srMask == 0 && s.vbr &&& 0x000FFFFF == 0 &&
    Sparse.get s.ctrl 0x800 == 0 && Sparse.get s.ctrl 0x801 == 0

/-- The state carries no fault and no refusal mark (10 R43). -/
def State.unmarked (s : State) : Bool := s.fault.isNone && s.refused.isNone

/-- The run of `n` steps meets no fault and no refusal (00 R11). -/
def safeRun (n : Nat) (s : State) : Prop := ∃ t, Sys2Proof.core.run n s = .next t

/-- The operand's bytes are mapped: reading or writing it meets no fault (20 R86). -/
def State.reaches (s : State) (sz : Size) (ea : Ea) : Bool := s.locMapped sz (s.locate sz ea)

/-- The bytes are mapped and none is a device's: plain memory (20 R86, R87). -/
def State.plainAt (s : State) (a : Long) (n : Nat) : Bool := s.mappedAt a n && !s.ioAt a n

/-- A source operand's value, and the state after it is resolved and read (20 R103, R105, R106). -/
def State.source (s : State) (sz : Size) (ea : Ea) : Long × State :=
  (s.autoUpdate sz ea).locValue sz (s.locate sz ea)

/-- The state after a value is written to a location with mapped bytes (20 R106). -/
def State.written (s : State) (sz : Size) (v : Long) : Loc → State
  | .dreg n => s.writeD n sz v
  | .areg n => s.setA n v
  | .mem a => s.deposit a sz v
  | .value _ => s
  | .special r => s.setSpecial v r

/-- The descriptor is not an immediate: it may be a destination (20 R102). -/
def Ea.isPlace : Ea → Bool
  | .immB _ | .immW _ | .immL _ => false
  | _ => true

/-- The address of an operand in memory; 0 for an operand that is not (20 R93 to R101). -/
def State.address (s : State) (sz : Size) (ea : Ea) : Long :=
  match s.locate sz ea with
  | .mem a => a
  | _ => 0

/-- The state committed at its cursor (10 R36). -/
def State.done (s : State) : State := { s with pc := s.cursor }

/-- The state with a program counter. -/
def State.atPc (s : State) (pc : Long) : State := { s with pc := pc }

/-- The exact sum of an add: the flags as carry out and signed overflow (10 R47, over the integers). -/
def exactAddFlags (old : Ccr) (chained : Bool) (a b : Long) (cin : Nat) : Ccr :=
  let u := a.toNat + b.toNat + cin
  let i := a.toInt + b.toInt + cin
  let r : Long := BitVec.ofNat 32 u
  { x := decide (2 ^ 32 ≤ u)
    n := r.getLsbD 31
    z := (!chained || old.z) && r == 0
    v := decide (i < -2 ^ 31 ∨ 2 ^ 31 ≤ i)
    c := decide (2 ^ 32 ≤ u) }

/-- The exact difference of a subtract: the flags as borrow and signed overflow (10 R48, over the integers). -/
def exactSubFlags (old : Ccr) (chained : Bool) (d s : Long) (bin : Nat) : Ccr :=
  let i := d.toInt - s.toInt - bin
  let r : Long := d - s - BitVec.ofNat 32 bin
  { x := decide (d.toNat < s.toNat + bin)
    n := r.getLsbD 31
    z := (!chained || old.z) && r == 0
    v := decide (i < -2 ^ 31 ∨ 2 ^ 31 ≤ i)
    c := decide (d.toNat < s.toNat + bin) }

/-- N and Z of a long result, V and C 0, X as it was (10 R52). -/
def resultFlags (old : Ccr) (r : Long) : Ccr :=
  { x := old.x, n := r.getLsbD 31, z := r == 0, v := false, c := false }

/-- The data register a descriptor names. -/
def Ea.dregs : Ea → List RegNo
  | .dn n => [n]
  | _ => []

/-- The address register an operand changes while it is resolved (20 R94, R95). -/
def Ea.autoRegs : Ea → List RegNo
  | .postInc n | .preDec n => [n]
  | _ => []

/-- The address registers a destination may change: its own or the one its mode changes. -/
def Ea.placeRegs : Ea → List RegNo
  | .an n | .postInc n | .preDec n => [n]
  | _ => []

/-- The compare rows, which write no register (42 R262 to R264). -/
def comparesOnly (op : Op) : Bool :=
  [.cmpB, .cmpW, .cmpL, .cmpaW, .cmpaL, .cmpiB, .cmpiW, .cmpiL].contains op

/-- The test rows of the bit instructions, which write no operand (44 R335). -/
def testsOnly (op : Op) : Bool := [.btstReg, .btstImm].contains op

/-- The F-EA rows that write their operand: CLR and TAS. -/
def writesEa (op : Op) : Bool := [.clrB, .clrW, .clrL, .tas].contains op

/-- The data registers of a mask (41 R207). -/
def maskD (m : Word) : List RegNo :=
  (maskRegs m).filterMap fun r => match r with
    | .d n => some n
    | .a _ => none

/-- The address registers of a mask (41 R207). -/
def maskA (m : Word) : List RegNo :=
  (maskRegs m).filterMap fun r => match r with
    | .a n => some n
    | .d _ => none

/-- The data registers an instruction may write when it raises no exception (files 41 to 46). -/
def Instr.writesD (i : Instr) : List RegNo :=
  match i.args with
  | .moveEa _ dst => Ea.dregs dst
  | .eaReg _ x => if opUsesAn i.op || comparesOnly i.op then [] else [x]
  | .regEa _ dst => if testsOnly i.op then [] else Ea.dregs dst
  | .quick8 _ x => [x]
  | .quickEa _ dst => Ea.dregs dst
  | .shiftImm _ x | .shiftReg _ x | .regReg _ x => [x]
  | .eaMask _ m => maskD m
  | .ea e => if writesEa i.op then Ea.dregs e else []
  | .reg x =>
    if [Op.unlk, .moveToUsp, .moveFromUsp, .cpushlDc, .cpushlIc, .cpushlBc, .intouch].contains i.op then []
    else [x]
  | .immBReg _ x | .immWReg _ x | .immReg _ x => if comparesOnly i.op then [] else [x]
  | .mul _ x | .div _ x => [x]
  | .rem _ w _ => [w]
  | .bitEa _ dst => if testsOnly i.op then [] else Ea.dregs dst
  | .condReg _ x => [x]
  | .maskEa .. | .regDisp .. | .condDisp8 .. | .condDisp16 .. | .condDisp32 .. | .disp8 _ | .disp16 _ => []
  | .disp32 _ | .fixed | .word _ | .long _ | .wordWord .. | .wordEa .. | .vector _ | .ctrl .. => []

/-- The rows that write an address register named in bits 11:9 (41 R202, R209; 42 R252, R258). -/
def loadsAn (op : Op) : Bool := [.moveaW, .moveaL, .lea, .adda, .suba].contains op

/-- The address registers an instruction may write when it raises no exception; A7 is the stack pointer of
the mode (files 41 to 46). -/
def Instr.writesA (i : Instr) : List RegNo :=
  match i.args with
  | .moveEa src dst => Ea.autoRegs src ++ Ea.placeRegs dst
  | .eaReg src x => Ea.autoRegs src ++ if loadsAn i.op then [x] else []
  | .regEa _ dst => if testsOnly i.op then Ea.autoRegs dst else Ea.placeRegs dst
  | .quickEa _ dst => Ea.placeRegs dst
  | .maskEa _ dst => Ea.autoRegs dst
  | .eaMask src m => Ea.autoRegs src ++ maskA m
  | .ea e =>
    if writesEa i.op then Ea.placeRegs e
    else Ea.autoRegs e ++ if [Op.pea, .jsr].contains i.op then [7] else []
  | .reg x => if i.op = .unlk then [x, 7] else if i.op = .moveFromUsp then [x] else []
  | .regDisp y _ => [y, 7]
  | .mul src _ | .div src _ | .rem src _ _ => Ea.autoRegs src
  | .bitEa _ dst => if testsOnly i.op then Ea.autoRegs dst else Ea.placeRegs dst
  | .disp8 _ | .disp16 _ | .disp32 _ => if [Op.bsrB, .bsrW, .bsrL].contains i.op then [7] else []
  | .fixed => if [Op.rts, .rte].contains i.op then [7] else []
  | .quick8 .. | .shiftImm .. | .shiftReg .. | .regReg .. | .immBReg .. | .immWReg .. | .immReg .. => []
  | .condReg .. | .condDisp8 .. | .condDisp16 .. | .condDisp32 .. | .word _ | .long _ | .wordWord .. => []
  | .wordEa .. | .vector _ | .ctrl .. => []

/-- The span a location takes in memory. -/
def Loc.span (n : Nat) : Loc → List (Long × Nat)
  | .mem a => [(a, n)]
  | .dreg _ | .areg _ | .value _ | .special _ => []

/-- The spans of memory an instruction may store to when it raises no exception: the destination as its meaning
computes it (a MOVE's after the source is read), the stack slot, or MOVEM's run of long words. -/
def Instr.stores (i : Instr) (s : State) : List (Long × Nat) :=
  let sz := i.row.eaSize
  match i.args with
  | .moveEa src dst => Loc.span sz.bytes ((s.source sz src).2.locate sz dst)
  | .regEa _ dst | .bitEa _ dst => if testsOnly i.op then [] else Loc.span sz.bytes (s.locate sz dst)
  | .quickEa _ dst => Loc.span 4 (s.locate .l dst)
  | .maskEa m dst => [(s.address .l dst, 4 * (maskRegs m).length)]
  | .ea e =>
    if writesEa i.op then Loc.span sz.bytes (s.locate sz e)
    else if [Op.pea, .jsr].contains i.op then [((s.autoUpdate .l e).a 7 - 4, 4)]
    else []
  | .regDisp _ _ => [(s.a 7 - 4, 4)]
  | .disp8 _ | .disp16 _ | .disp32 _ =>
    if [Op.bsrB, .bsrW, .bsrL].contains i.op then [(s.a 7 - 4, 4)] else []
  | .eaReg .. | .quick8 .. | .shiftImm .. | .shiftReg .. | .eaMask .. | .reg _ | .immBReg .. | .immWReg .. => []
  | .immReg .. | .regReg .. | .mul .. | .div .. | .rem .. | .condDisp8 .. | .condDisp16 .. => []
  | .condDisp32 .. | .condReg .. | .fixed | .word _ | .long _ | .wordWord .. | .wordEa .. | .vector _ => []
  | .ctrl .. => []

/-- The rows that write no flag in any form (10 R55; the Flags lines of files 41 to 46). -/
def keepsFlags (op : Op) : Bool :=
  [.moveaW, .moveaL, .movemToMem, .movemToRegs, .lea, .pea, .link, .unlk, .adda, .suba, .bitrev, .byterev,
    .bccB, .bccW, .bccL, .braB, .braW, .braL, .bsrB, .bsrW, .bsrL, .jmp, .jsr, .rts, .scc, .tpf, .tpfW,
    .tpfL, .nop, .trap, .illegal, .moveFromSr, .moveFromCcr, .moveToUsp, .moveFromUsp, .movec, .halt,
    .pulse].contains op

/-- The rows that may write X (the Flags lines of files 42 to 46). -/
def writesX (op : Op) : Bool :=
  [.addEaDn, .addDnEa, .addi, .addq, .addx, .subEaDn, .subDnEa, .subi, .subq, .subx, .neg, .negx, .aslImm,
    .aslReg, .asrImm, .asrReg, .lslImm, .lslReg, .lsrImm, .lsrReg, .moveToSr, .moveToCcr, .rte,
    .stop].contains op

/-- The rows that write Z and no other flag (44 R334). -/
def writesZOnly (op : Op) : Bool :=
  [.btstReg, .btstImm, .bchgReg, .bchgImm, .bclrReg, .bclrImm, .bsetReg, .bsetImm].contains op

/-- The rows that write SR as a whole (46 R390). -/
def writesSr (op : Op) : Bool := [.moveToSr, .rte, .stop].contains op

/-- The bytes an exception entry touches are mapped: the two frame words and the vector (60 R434). -/
def State.canEnter (s : State) (k : ExcKind) : Bool :=
  let sp := State.a { s with sr := entrySr s.sr k.level } 7
  s.mappedAt (alignDown sp - 4) 4 && s.mappedAt (alignDown sp - 8) 4 && s.mappedAt (s.vectorAddr k.vector) 4

end Sys2Proof.Machine
end

