-- ==== Sys2Proof/Certificates/Slice0/Obligations.lean ====
section
/-! DEFINITION. The statements for the provers. "p" in a statement is the value of the source operand and the
state after it is read; rule numbers are those of spec/. -/

open Sys2Proof Sys2Proof.Machine

/-! ### Reset, run state and the machine's data -/

/-- 70 R480: reset, for every configuration, program image and every value of the draws; `State.reset` is one. -/
def Obligations.ResetValues : Prop :=
  (∃ cfg image r, State.reset = State.resetWith cfg image r) ∧
  ∀ (cfg : Config) (image : Memory) (r : ResetDraws), let s := State.resetWith cfg image r
    (∀ n : RegNo, s.d n = r.d[n.toNat]) ∧ s.aregs = r.a ∧ s.ssp = cfg.initialSsp ∧ s.a 7 = cfg.initialSsp ∧
    s.usp = r.usp ∧ s.pc = cfg.programStart ∧ s.tracing = false ∧ s.supervisor = true ∧ s.master = false ∧
    s.intMask = 7 ∧ s.sr &&& ~~~srMask = 0 ∧ s.ccr = Ccr.ofBits r.ccr ∧ s.vbr = 0 ∧
    (∀ code : BitVec 12, code ≠ 0x800 → s.control code = 0) ∧ s.runState = .running ∧ s.fault = none ∧
    s.refused = none ∧ s.afterException = false ∧ s.cursor = s.pc ∧ s.mem = image ∧ s.ioLog = [] ∧
    s.iplPrev = 0

/-- The invariant of the machine's data holds after reset: memory in canonical form (20 R80), the reserved
bits of SR and of VBR 0 (10 R39, R45). -/
def Obligations.ResetIsSound : Prop :=
  State.reset.sound = true ∧
    ∀ (cfg : Config) (image : Memory) (r : ResetDraws), image.wf = true →
      (State.resetWith cfg image r).sound = true

/-- The invariant of the machine's data: every step keeps memory and the control registers in canonical form,
the reserved bits of SR 0 (10 R39), and VBR[19:0] 0 (10 R45). -/
def Obligations.StepKeepsSound : Prop :=
  ∀ s t : State, s.sound = true → step s = .next t → t.sound = true

/-- 00 R7: the parameters are fixed, 10 R43: no step sets or clears a mark of a state it leaves, and 20 R87:
the device history only grows. -/
def Obligations.StepKeepsParameters : Prop :=
  ∀ s t : State, step s = .next t →
    t.cfg = s.cfg ∧ t.fault = s.fault ∧ t.refused = s.refused ∧ s.ioLog <+: t.ioLog ∧
      s.drawCount ≤ t.drawCount

/-- A fault or refusal mark stops every later step and stays (10 R43; 30 R149), with the state the mark was set in. The
answers of the other two are the model's reading, DEDUCED (log 10): the step of a halted context answers the same
state (70 R488: nothing), and the step of a stopped one with no acceptable interrupt uses up the request of the step
(60 R445); that an outcome carries the state it leaves is the model's form (log 11). -/
def Obligations.StuckContexts : Prop :=
  ∀ s : State,
    (∀ f, s.fault = some f → step s = .fault (.hit f s) ∧ s.settle (step s) = s) ∧
    (∀ r, s.fault = none → s.refused = some r → step s = .refused (.stop r s) ∧ s.settle (step s) = s) ∧
    (s.fault = none → s.refused = none → s.runState = .halted → step s = .next s) ∧
    (s.fault = none → s.refused = none → s.runState = .stopped → s.interruptDue = false →
      step s = .next { s with ipl := s.ipl.tail, iplPrev := s.level })

/-- 10 R39: every write of SR stores the value masked with 0xB71F: the host's write (70 R489), MOVE to SR, STOP
and RTE, an entry, and a write of the CCR alone; a read, the host's or MOVE from SR, returns what is stored. -/
def Obligations.StatusRegisterMask : Prop :=
  ∀ (s : State) (v : Word),
    hostReadSr (hostWriteSr s v) = v &&& 0xB71F ∧
    (∀ i < 16, (hostWriteSr s v).sr.getLsbD i =
      (v.getLsbD i && (i == 15 || i == 13 || i == 12 || (8 ≤ i && i ≤ 10) || i ≤ 4))) ∧
    (s.supervisor = true → ∃ t, exec (.moveToSr (.immW v)) s = .next t ∧ t.sr = v &&& 0xB71F) ∧
    (s.supervisor = true → ∃ t, exec (.stop v) s = .next t ∧ t.sr = v &&& 0xB71F) ∧
    (∀ t, s.afterException = false → exec .rte s = .next t → t.afterException = false →
      ∃ w : Word, t.sr = w &&& 0xB71F) ∧
    (∀ level, s.sr &&& ~~~0xB71F = 0 → entrySr s.sr level &&& ~~~0xB71F = 0) ∧
    (∀ f, s.sr &&& ~~~0xB71F = 0 → (s.setCcr f).sr &&& ~~~0xB71F = 0) ∧
    (s.supervisor = true → ∀ x, ∃ t, exec (.moveFromSr x) s = .next t ∧ (t.d x).extractLsb' 0 16 = s.sr)

/-! ### Flags -/

/-- 10 R47, R48, R49, R51, R52, R53: the flag setters, each flag by its formula at every size. -/
def Obligations.FlagSetters : Prop :=
  ∀ (sz : Size) (a b d s r : Long) (z ext : Bool) (old : Ccr),
    let add := addFlags sz a b r ext old
    let sub := subFlags sz d s r ext old
    let cmp := cmpFlags sz d s r old
    let logic := logicFlags sz r old
    add.n = r.getLsbD (8 * sz.bytes - 1) ∧
    add.v = ((a ^^^ r) &&& (b ^^^ r)).getLsbD (8 * sz.bytes - 1) ∧
    add.c = ((a &&& b) ||| ((a ||| b) &&& ~~~r)).getLsbD (8 * sz.bytes - 1) ∧ add.x = add.c ∧
    (add.z = true ↔ sz.trunc r = 0 ∧ (ext = true → old.z = true)) ∧
    sub.n = r.getLsbD (8 * sz.bytes - 1) ∧
    sub.v = ((s ^^^ d) &&& (r ^^^ d)).getLsbD (8 * sz.bytes - 1) ∧
    sub.c = ((s &&& ~~~d) ||| (r &&& ~~~d) ||| (s &&& r)).getLsbD (8 * sz.bytes - 1) ∧ sub.x = sub.c ∧
    (sub.z = true ↔ sz.trunc r = 0 ∧ (ext = true → old.z = true)) ∧
    cmp = { subFlags sz d s r false old with x := old.x } ∧
    logic.n = r.getLsbD (8 * sz.bytes - 1) ∧ (logic.z = true ↔ sz.trunc r = 0) ∧ logic.v = false ∧
    logic.c = false ∧ logic.x = old.x ∧ zeroFlag z old = { old with z := z }

/-- The conditions of 10 R54 after the compare flags of R49 at every size are the orders of the truncated
operands: HI, LS, CC, CS of the unsigned ones, GE, LT, GT, LE of the signed ones, NE and EQ of both. -/
def Obligations.ComparedOperandsOrder : Prop :=
  ∀ (sz : Size) (d s : Long) (old : Ccr),
    let du := (sz.trunc d).toNat
    let su := (sz.trunc s).toNat
    let di : Int := if 2 * du < 2 ^ sz.bits then du else du - 2 ^ sz.bits
    let si : Int := if 2 * su < 2 ^ sz.bits then su else su - 2 ^ sz.bits
    let f := cmpFlags sz (sz.trunc d) (sz.trunc s) (sz.trunc (sz.trunc d - sz.trunc s)) old
    f.holds .hi = decide (su < du) ∧ f.holds .ls = decide (du ≤ su) ∧
    f.holds .cc = decide (su ≤ du) ∧ f.holds .cs = decide (du < su) ∧
    f.holds .ne = decide (du ≠ su) ∧ f.holds .eq = decide (du = su) ∧
    f.holds .ge = decide (si ≤ di) ∧ f.holds .lt = decide (di < si) ∧
    f.holds .gt = decide (si < di) ∧ f.holds .le = decide (di ≤ si)

/-- 10 R54: the sixteen conditions and their codes. -/
def Obligations.ConditionTable : Prop :=
  (∀ f : Ccr,
    f.holds .t = true ∧ f.holds .f = false ∧ f.holds .hi = (!f.c && !f.z) ∧ f.holds .ls = (f.c || f.z) ∧
    f.holds .cc = !f.c ∧ f.holds .cs = f.c ∧ f.holds .ne = !f.z ∧ f.holds .eq = f.z ∧ f.holds .vc = !f.v ∧
    f.holds .vs = f.v ∧ f.holds .pl = !f.n ∧ f.holds .mi = f.n ∧ f.holds .ge = (f.n == f.v) ∧
    f.holds .lt = (f.n != f.v) ∧ f.holds .gt = (!f.z && f.n == f.v) ∧ f.holds .le = (f.z || f.n != f.v)) ∧
  (∀ c : BitVec 4, (Cond.ofCode c).code = c) ∧
  allConds.map Cond.code = [0, 1, 2, 3, 4, 5, 6, 7, 8, 9, 10, 11, 12, 13, 14, 15]

/-! ### Memory and operands -/

/-- 20 R82 (with R81): a store to plain memory puts the bytes of the value most significant first, leaves every
other byte alone, and reads back at any width: the same value at its own width, and the high word and the low
byte of a long word. -/
def Obligations.StoreIsBigEndian : Prop :=
  ∀ (s : State) (a : Long) (v : Long) (sz : Size), s.mem.wf = true → s.plainAt a sz.bytes = true →
    ∃ t, s.store a sz v = .ok t ∧
      (∀ k < sz.bytes, t.byteAt (a + BitVec.ofNat 32 k).toNat = v.extractLsb' (8 * (sz.bytes - 1 - k)) 8) ∧
      (∀ k, k ∉ spanAddrs a sz.bytes → t.byteAt k = s.byteAt k) ∧
      t.peek a sz = sz.trunc v ∧
      (sz = .l → t.peek a .w = (v.extractLsb' 16 16).setWidth 32 ∧
        t.peek (a + 3) .b = (v.extractLsb' 0 8).setWidth 32) ∧
      t = { s with mem := t.mem }

/-- 20 R86: an access of any kind that touches an unmapped byte has no value and ends the step with the fault that
names it, whatever was to follow; by default every byte is mapped. The context is left with its state as it was when the
fault hit (41 R215): of an opcode fetch nothing has changed but the cursor and the request read; of a MOVE to an
unmapped place the source is read and both registers of the auto modes have changed; of a PEA the stack pointer has
moved. -/
def Obligations.UnmappedAccessFaults : Prop :=
  (∀ (s : State) (a : Long) (sz : Size) (k : AccessKind) (v : Long),
    (∃ j < sz.bytes, s.cfg.mapped (a + BitVec.ofNat 32 j).toNat = false) →
      s.load k a sz = .error (.hit (.unmappedAccess a sz.bytes k) s) ∧
      s.store a sz v = .error (.hit (.unmappedAccess a sz.bytes .write) s) ∧
      (∀ go, withValue (s.load k a sz) go = .fault (.hit (.unmappedAccess a sz.bytes k) s)) ∧
      ∀ go, withState (s.store a sz v) go = .fault (.hit (.unmappedAccess a sz.bytes .write) s)) ∧
  (∀ s : State, s.fault = none → s.refused = none → s.runState = .running → s.interruptDue = false →
    s.pc.getLsbD 0 = false → s.mappedAt s.pc 2 = false →
    ∃ t, step s = .fault (.hit (.unmappedAccess s.pc 2 .fetch) t) ∧
      t = { s with cursor := s.pc, ipl := t.ipl, iplPrev := t.iplPrev }) ∧
  (∀ m ∈ [(Size.b, Instr.moveB), (.w, .moveW), (.l, .moveL)], ∀ (s : State) (src dst : Ea) (a : Long),
    let p := s.source m.1 src
    s.reaches m.1 src = true → p.2.locate m.1 dst = .mem a → p.2.mappedAt a m.1.bytes = false →
    exec (m.2 src dst) s =
      .fault (.hit (.unmappedAccess a m.1.bytes .write) (p.2.autoUpdate m.1 dst))) ∧
  (∀ (s : State) (ea : Ea) (a : Long), s.locate .l ea = .mem a → Ea.autoRegs ea = [] →
    s.mappedAt (s.a 7 - 4) 4 = false →
    exec (.pea ea) s = .fault (.hit (.unmappedAccess (s.a 7 - 4) 4 .write) (s.setA 7 (s.a 7 - 4)))) ∧
  (∀ (s left : State) (why : FaultReason), s.settle (.fault (.hit why left)) = { left with fault := some why }) ∧
  ∀ a, Config.default.mapped a = true

/-- 20 R87: an access that touches a device byte: a read answers the next draw at the width, a write does not change
memory, both are appended to the history, nothing else changes but the count of draws; the history is empty at reset,
by default no byte is a device's, and a read of plain memory changes nothing and repeats. That the next draw is
`Config.drawValue` at the counter, which it advances, is the model's form of a draw (DESIGN CHOICE, log 8). -/
def Obligations.DeviceAccess : Prop :=
  (∀ (s : State) (a : Long) (sz : Size) (k : AccessKind) (v : Long), s.mappedAt a sz.bytes = true →
    (∃ j < sz.bytes, s.cfg.isIo (a + BitVec.ofNat 32 j).toNat = true) →
      let u := sz.trunc (Config.drawValue s.drawCount)
      s.load k a sz = .ok (u,
        { s with
          drawCount := s.drawCount + 1
          ioLog := s.ioLog ++ [{ kind := k, addr := a, n := sz.bytes, value := u }] }) ∧
      s.store a sz v = .ok
        { s with ioLog := s.ioLog ++ [{ kind := .write, addr := a, n := sz.bytes, value := sz.trunc v }] }) ∧
  (∀ (s : State) (a : Long) (sz : Size) (k : AccessKind), s.plainAt a sz.bytes = true →
    s.load k a sz = .ok (s.peek a sz, s)) ∧
  State.reset.ioLog = [] ∧ ∀ a, Config.default.isIo a = false

/-- 20 R92 to R96, R98, R99, and the indexed and PC-relative modes: where each addressing mode points, how many
extension words it takes, and that `(An)+` and `-(An)` alone change a register, by the size or, for a byte at A7,
by A7_BYTE_STEP, and only in a resolution with side effects. The same for the descriptors of R90, with the base a
PC-relative one carries, and `Special(tag)` for a special register (R91). -/
def Obligations.EffectiveAddresses : Prop :=
  ∀ (s : State) (sz : Size) (n : RegNo) (d16 : Word) (a32 : Long) (x : Brief),
    let xv := s.reg x.xreg * BitVec.ofNat 32 (scaleNumber x.scale)
    let step : Long := if n = 7 ∧ sz = .b then s.cfg.a7ByteStep else BitVec.ofNat 32 sz.bytes
    let at_ := fun (e : Ea) (l : Loc) (t : State) (k : Nat) =>
      s.resolve true sz e = (l, t) ∧ s.resolve false sz e = (l, s) ∧ e.exts.length = k
    at_ (.dn n) (.dreg n) s 0 ∧ at_ (.an n) (.areg n) s 0 ∧ at_ (.ind n) (.mem (s.a n)) s 0 ∧
    at_ (.postInc n) (.mem (s.a n)) (s.setA n (s.a n + step)) 0 ∧
    at_ (.preDec n) (.mem (s.a n - step)) (s.setA n (s.a n - step)) 0 ∧
    at_ (.disp n d16) (.mem (s.a n + d16.signExtend 32)) s 1 ∧ (Ea.disp n d16).exts = [d16] ∧
    at_ (.index n x) (.mem (s.a n + (x.d8.signExtend 32 + xv))) s 1 ∧
    at_ (.absW d16) (.mem (d16.signExtend 32)) s 1 ∧ (Ea.absW d16).exts = [d16] ∧
    at_ (.absL a32) (.mem a32) s 2 ∧ (Ea.absL a32).exts = [a32.extractLsb' 16 16, a32.extractLsb' 0 16] ∧
    at_ (.pcDisp d16) (.mem (s.pc + 2 + d16.signExtend 32)) s 1 ∧
    at_ (.pcIndex x) (.mem (s.pc + 2 + (x.d8.signExtend 32 + xv))) s 1 ∧
    (∀ m v, (s.setA n v).a m = if n = m then v else s.a m) ∧
    (∀ effects e, s.resolveDesc effects sz (.ofEa s.pc e) = some (s.resolve effects sz e)) ∧
    (∀ effects addr, s.resolveDesc effects sz (.ofEa addr (.pcDisp d16)) =
        some (.mem (addr + 2 + d16.signExtend 32), s) ∧
      s.resolveDesc effects sz (.ofEa addr (.pcIndex x)) =
        some (.mem (addr + 2 + (x.d8.signExtend 32 + xv)), s)) ∧
    ∀ effects r, s.resolveDesc effects sz (.special r) = some (.special r, s)

/-- Reading a source operand (20 R87, R94, R95, R102, R103, R105, R106): the value is that of the register, of the
immediate, of the bytes of plain memory or a draw of a device, at the size; nothing changes but the address register of
an auto mode, where A7 is the stack pointer of the present mode alone, and for a device the history and the count of
draws (the model's form of a draw, log 8). -/
def Obligations.SourceOperandRead : Prop :=
  ∀ (s : State) (sz : Size) (e : Ea), let p := s.source sz e
    let u := s.autoUpdate sz e
    let drawn := sz.trunc (Config.drawValue s.drawCount)
    (∀ n, e = .dn n → p = (sz.trunc (s.d n), s)) ∧ (∀ n, e = .an n → p = (sz.trunc (s.a n), s)) ∧
    (∀ v, e = .immB v → p = (v.setWidth 32, s)) ∧ (∀ v, e = .immW v → p = (sz.trunc (v.setWidth 32), s)) ∧
    (∀ v, e = .immL v → p = (sz.trunc v, s)) ∧
    (∀ a, s.locate sz e = .mem a → s.ioAt a sz.bytes = false → p = (s.peek a sz, u)) ∧
    (∀ a, s.locate sz e = .mem a → s.ioAt a sz.bytes = true → p = (drawn,
      { u with
        drawCount := s.drawCount + 1
        ioLog := s.ioLog ++ [{ kind := .read, addr := a, n := sz.bytes, value := drawn }] })) ∧
    sz.trunc p.1 = p.1 ∧
    (Ea.autoRegs e = [] → u = s) ∧ (∀ n, n ∉ Ea.autoRegs e → u.a n = s.a n) ∧
    u = { s with aregs := u.aregs, ssp := u.ssp, usp := u.usp } ∧
    (7 ∉ Ea.autoRegs e → u.ssp = s.ssp ∧ u.usp = s.usp) ∧
    (if s.onUsp then u.ssp = s.ssp else u.usp = s.usp) ∧ (7 ∈ Ea.autoRegs e → u.aregs = s.aregs)

/-! ### Encoding -/

/-- 30 R159, for the words: decoding what the encoder writes gives the instruction back and its length, whatever
words follow, for every instruction legal in the tier and every value of every operand field. -/
def Obligations.DecodeEncodeRoundTrip : Prop :=
  ∀ (isa : Isa) (i : Instr) (rest : List Word), i.wellFormed isa = true →
    decodeWords isa (encode i ++ rest) = .ok (i, (encode i).length)

/-- 30 R107, R143, R130, R135: what the decoder accepts is legal in the tier, and it takes as many words as the
encoder would write, one to three. -/
def Obligations.DecodedIsLegal : Prop :=
  ∀ (isa : Isa) (ws : List Word) (i : Instr) (n : Nat), decodeWords isa ws = .ok (i, n) →
    i.wellFormed isa = true ∧ n = (encode i).length ∧ 1 ≤ n ∧ n ≤ 3 ∧ n ≤ ws.length

/-- 30 R145, R146: in every tier, with or without divide, no word is matched by two definitions that an extension word
does not tell apart: a word is looked up as several definitions only where each has a pattern for its first extension
word, at most one of them fits any such word, and that one is picked. -/
def Obligations.RegistryIsUnambiguous : Prop :=
  ∀ isa : Isa, registryUnambiguous isa ∧
    ∀ (w : Word) (ops : List Op), lookup isa w = .group ops →
      (∀ op ∈ ops, op.row.ext ≠ none) ∧
      ∀ e : Word, let fits := fun op : Op => op.row.ext.any fun x => x.fits e
        (ops.filter fits).length ≤ 1 ∧ selectRow ops e = (ops.filter fits).head?

/-- 43 R312: without the divide option the DIV and REM rows are absent: the words they would take match no
definition and raise illegal instruction, Encode knows neither their mnemonics, and the multiply rows stay. -/
def Obligations.DivideOptionOff : Prop :=
  ∀ isa : Isa, isa.hwDivide = false →
    (∀ op ∈ [Op.divuW, .divsW, .divuL, .divsL, .remuL, .remsL],
      op.row.visible isa = false ∧ (∀ w, op ∉ candidates isa w) ∧
      ∀ w, op ∈ candidates { isa with hwDivide := true } w → lookup isa w = .unmatched ∧
        ∀ s : State, s.cfg.isa = isa → s.runWord exec w = s.enter 4 s.pc none) ∧
    (∀ name ∈ ["DIVU", "DIVS", "REMU", "REMS"], ∀ (c : Config) (sz : Option Size) (o1 o2 : Option Operand),
      c.isa = isa → assemble c name sz o1 o2 = .error { operand := none, reason := .unknownMnemonic }) ∧
    (∀ op ∈ [Op.muluW, .mulsW, .muluL, .mulsL], op.row.visible isa = true)

/-- Words written out from the spec's encodings and examples decode to the instructions they stand for (45 R369,
42 R256, 41 R201, R207, 43 R310, 44 R337, 45 R361, 46 R397). -/
def Obligations.WordsOfTheSpec : Prop :=
  decodeTableWord 16 0x4E71 = some .nop ∧ decodeTableWord 16 0x9081 = some (.subEaDn (.dn 1) 0) ∧
  decodeTableWord 16 0x3200 = some (.moveW (.dn 0) (.dn 1)) ∧
  decodeTableWord 32 0x000348D0 = some (.movemToMem 0x0003 (.ind 0)) ∧
  decodeTableWord 32 0x00024C41 = some (.remuL (.dn 1) 2 0) ∧
  decodeTableWord 32 0x00230880 = some (.bclrImm 0x23 (.dn 0)) ∧
  decodeTableWord 16 0x66FA = some (.bccB .ne 0xFA) ∧
  decodeTableWord 32 0x88014E7B = some (.movec (.a 0) 0x801) ∧ decodeTableWord 16 0x4E70 = none

/-- 30 R157: CalcSize fails exactly when Encode fails, with its error, and else is the length in bytes of what
Encode writes. -/
def Obligations.CalcSizeIsEncodedLength : Prop :=
  ∀ (c : Config) (name : String) (sz : Option Size) (o1 o2 : Option Operand),
    (∀ e, assembleWords c name sz o1 o2 = .error e ↔ calcSize c name sz o1 o2 = .error e) ∧
    (∀ ws, assembleWords c name sz o1 o2 = .ok ws → calcSize c name sz o1 o2 = .ok (2 * ws.length))

/-! ### The step -/

/-- 30 R149: when no interrupt is acceptable, the context runs, the PC is even and the plain, mapped words there
are those of a legal instruction that the mode may run, the step is exec of it, at the state with the request
of the step used up, the cursor past the words and the after-exception mark cleared, followed by the trace
exception if T was set. -/
def Obligations.StepRunsDecodedInstruction : Prop :=
  ∀ (s : State) (i : Instr), s.fault = none → s.refused = none → s.runState = .running →
    s.interruptDue = false → s.pc.getLsbD 0 = false → i.wellFormed s.cfg.isa = true →
    s.mayRun i.op = true →
    (∀ (k : Nat) (h : k < (encode i).length), s.plainAt (s.pc + BitVec.ofNat 32 (2 * k)) 2 = true ∧
      (s.peek (s.pc + BitVec.ofNat 32 (2 * k)) .w).setWidth 16 = (encode i)[k]) →
    step s = traced s.tracing (exec i
      { s with
        ipl := s.ipl.tail
        iplPrev := s.level
        cursor := s.pc + BitVec.ofNat 32 (2 * (encode i).length)
        afterException := false })

/-- The words at the PC that are no instruction. 30 R147 with R153(c); 60 R437, R438: an opcode word that no definition
matches raises illegal instruction, line A or line F by its top four bits, with its own address stacked, but a tier-A
long-branch word is refused; disassembly of it is Unrecognized with length 2. 20 R97; 60 R439, cause 2: a brief extension
word of the source or of a MOVE's destination with W/L 0, a scale of 8 or the full format raises an address error,
vector 3, with the opcode word's address stacked. 30 R146; 43 R300, R301: a MUL.L or DIV.L extension word with a
reserved bit is refused, and any other has its row.
The model's reading: that this refusal comes before the EA words behind it are fetched, whatever they are, is DEDUCED
(log 15); that the two refusals leave `fetched 1` and `fetched 2`, where the spec's vectors say only that the state is
unchanged, is DEDUCED (logs 11 and 12: cursor past the words, after-exception mark cleared), with the step's request used up
as the list of levels has it (log 9, DESIGN CHOICE). -/
def Obligations.UnmatchedWord : Prop :=
  ∀ (s : State) (w : Word), s.fault = none → s.refused = none → s.runState = .running →
    s.interruptDue = false → s.pc.getLsbD 0 = false → s.plainAt s.pc 2 = true →
    (s.peek s.pc .w).setWidth 16 = w →
    let fetched := fun words : Nat => { s with
      ipl := s.ipl.tail
      iplPrev := s.level
      cursor := s.pc + BitVec.ofNat 32 (2 * words)
      afterException := false }
    (lookup s.cfg.isa w = .unmatched →
      step s = (if s.cfg.isa.tier = .a ∧ w &&& 0xF0FF = 0x60FF
          then .refused (.stop (.unknownBehaviour w) (fetched 1))
        else if w.extractLsb' 12 4 = 0xA then State.enter (fetched 1) 10 s.pc none
        else if w.extractLsb' 12 4 = 0xF then State.enter (fetched 1) 11 s.pc none
        else State.enter (fetched 1) 4 s.pc none) ∧
      s.disassemble s.pc = .unrecognized w ∧ (s.disassemble s.pc).length = 2) ∧
    (∀ (rest : List Word) (op : Op), selectOp s.cfg.isa w rest = .ok op → s.mayRun op = true →
      rest.length = op.row.form.extWords + op.row.eaWords w →
      (∀ (k : Nat) (h : k < rest.length), s.plainAt (s.pc + BitVec.ofNat 32 (2 * (k + 1))) 2 = true ∧
        (s.peek (s.pc + BitVec.ofNat 32 (2 * (k + 1))) .w).setWidth 16 = rest[k]) →
      let bad := fun e : Word => e.getLsbD 11 = false ∨ e.extractLsb' 9 2 = 3 ∨ e.getLsbD 8 = true
      (op.row.ea ≠ none ∧ (w.extractLsb' 3 3 = 6 ∨ w.extractLsb' 0 6 = 0x3B) ∧
          bad ((rest.drop op.row.form.extWords).headD 0) ∨
        op.row.dst ≠ none ∧ w.extractLsb' 6 3 = 6 ∧ bad (rest.getLastD 0)) →
      step s = State.enter (fetched (1 + rest.length)) 3 s.pc none) ∧
    (∀ (ops : List Op) (e : Word), lookup s.cfg.isa w = .group ops → s.plainAt (s.pc + 2) 2 = true →
      (s.peek (s.pc + 2) .w).setWidth 16 = e →
      if e &&& (if w &&& 0xFFC0 = 0x4C00 then 0x87FF else 0x87F8) = 0 then selectRow ops e ≠ none
      else step s = .refused (.stop (.reservedExtension w e) (fetched 2)))

/-- 60 R436; 30 R149: an opcode word of a privileged definition in user mode raises a privilege violation, vector 8,
with the instruction's own address stacked, before any extension word is fetched; the privileged rows are those of the
rule, and HALT may run if USER_HALT. That Execute checks the mode too is the model's reading (DEDUCED, log 23). -/
def Obligations.PrivilegeViolation : Prop :=
  (∀ (s : State) (w : Word) (op : Op), s.fault = none → s.refused = none → s.runState = .running →
    s.interruptDue = false → s.pc.getLsbD 0 = false → s.plainAt s.pc 2 = true →
    (s.peek s.pc .w).setWidth 16 = w → lookup s.cfg.isa w = .found op → op.row.privileged = true →
    s.supervisor = false → ¬(op = .halt ∧ s.cfg.userHalt = true) →
    step s = State.enter
      { s with
        ipl := s.ipl.tail
        iplPrev := s.level
        cursor := s.pc + 2
        afterException := false } 8 s.pc none) ∧
  (∀ (i : Instr) (s : State), i.row.privileged = true → s.supervisor = false →
    ¬(i.op = .halt ∧ s.cfg.userHalt = true) → exec i s = s.enter 8 s.pc none) ∧
  ∀ op : Op, op.row.privileged = true ↔
    op ∈ [Op.moveFromSr, .moveToSr, .moveToUsp, .moveFromUsp, .movec, .rte, .stop, .halt, .strldsr, .cpushlDc,
      .cpushlIc, .cpushlBc, .intouch, .wdebug]

/-- 60 R439, R449; 20 R84: an odd PC raises an address error, vector 3, with the odd PC stacked and nothing fetched,
but on a handler's first fetch it halts the context; that PC and the after-exception mark stay as they are then, and
nothing else changes, is the model's reading (DEDUCED, log 22). -/
def Obligations.OddProgramCounter : Prop :=
  ∀ s : State, s.fault = none → s.refused = none → s.runState = .running → s.interruptDue = false →
    s.pc.getLsbD 0 = true → let u := { s with ipl := s.ipl.tail, iplPrev := s.level }
      (s.afterException = false → step s = u.enter 3 s.pc none) ∧
      (s.afterException = true → step s = .next { u with runState := .halted })

/-- 60 R445, R446: a request above the mask, or level 7 on its rising edge, is taken by a running or stopped
context with no mark, before any fetch: autovector 24 + L, the committed PC stacked, level L. -/
def Obligations.InterruptIsTaken : Prop :=
  ∀ s : State, s.fault = none → s.refused = none → s.runState ≠ .halted →
    (s.intMask.toNat < s.level.toNat ∨ (s.level = 7 ∧ s.iplPrev ≠ 7)) →
    step s = State.enter { s with ipl := s.ipl.tail, iplPrev := s.level } (24 + s.level.setWidth 8) s.pc
      (some s.level)

/-- 60 R442: after an instruction that completed without an exception and did not halt, a T that was set at its
fetch raises a trace exception with the committed PC stacked; nothing is traced otherwise. -/
def Obligations.TraceAfterInstruction : Prop :=
  ∀ (r : Result) (s : State),
    traced false r = r ∧
    (s.afterException = false → s.runState ≠ .halted → traced true (.next s) = s.enter 9 s.pc none) ∧
    (s.afterException = true ∨ s.runState = .halted → traced true (.next s) = .next s) ∧
    (∀ f, traced true (.fault f) = .fault f) ∧ (∀ q, traced true (.refused q) = .refused q)

/-! ### Exceptions -/

/-- 60 R434, R433, R431: taking an exception: S is set and T cleared (for an interrupt I is the level and M cleared),
A7 is aligned down and moved by 8, the frame holds the format with the misalignment, the vector, the old SR and the
stacked PC, the PC is the long word at VBR + 4*vector, and nothing else changes but memory or, for a device, the
history and the draws; an unmapped frame word or vector is the fault of the first such access, with the
state as it is then and nothing after it done. -/
def Obligations.ExceptionEntry : Prop :=
  ∀ (s : State) (vec : BitVec 8) (pc : Long) (level : Option (BitVec 3)),
    let sp := State.a { s with sr := entrySr s.sr level } 7
    let sp' := sp &&& 0xFFFFFFFC
    let va := s.vbr + 4 * vec.setWidth 32
    let s1 := { s with sr := entrySr s.sr level }
    (s.mappedAt (sp' - 4) 4 = false →
      s.enter vec pc level = .fault (.hit (.unmappedAccess (sp' - 4) 4 .write) s1)) ∧
    (s.mappedAt (sp' - 4) 4 = true → s.mappedAt (sp' - 8) 4 = false →
      s.enter vec pc level = .fault (.hit (.unmappedAccess (sp' - 8) 4 .write) (s1.deposit (sp' - 4) .l pc))) ∧
    (s.mappedAt (sp' - 4) 4 = true → s.mappedAt (sp' - 8) 4 = true → s.mappedAt va 4 = false →
      s.enter vec pc level = .fault (.hit (.unmappedAccess va 4 .read)
        { (s1.deposit (sp' - 4) .l pc).deposit (sp' - 8) .l (frameWord sp vec s.sr) with
          ssp := sp' - 8
          runState := .running
          afterException := true })) ∧
    (s.mappedAt (sp' - 4) 4 = true → s.mappedAt (sp' - 8) 4 = true → s.mappedAt va 4 = true →
      ∃ t, s.enter vec pc level = .next t ∧
        t.supervisor = true ∧ t.tracing = false ∧ t.a 7 = sp' - 8 ∧ t.ssp = sp' - 8 ∧ t.ccr = s.ccr ∧
        (level = none → t.intMask = s.intMask ∧ t.master = s.master) ∧
        (∀ l, level = some l → t.intMask = l ∧ t.master = false) ∧
        t = { s with
              sr := t.sr
              ssp := t.ssp
              mem := t.mem
              pc := t.pc
              ioLog := t.ioLog
              drawCount := t.drawCount
              runState := .running
              afterException := true } ∧
        (s.ioAt va 4 = false → t.pc = t.peek va .l) ∧
        (∀ k, k ∉ spanAddrs (sp' - 8) 8 → t.byteAt k = s.byteAt k) ∧
        (s.mem.wf = true → s.ioAt (sp' - 4) 4 = false → s.ioAt (sp' - 8) 4 = false →
          let f := t.peek (sp' - 8) .l
          t.peek (sp' - 4) .l = pc ∧ f.extractLsb' 28 4 = 4 + (sp.extractLsb' 0 2).setWidth 4 ∧
          f.extractLsb' 26 2 = 0 ∧ f.extractLsb' 18 8 = vec ∧ f.extractLsb' 16 2 = 0 ∧
          f.extractLsb' 0 16 = s.sr))

/-- RTE's own effect (46 R398, execution): in supervisor mode, with the two long words of the frame read and a
format of 4 to 7, the stack pointer moves past the frame and the misalignment is added back, SR is the frame's
masked, the PC is the frame's, and nothing else changes. -/
def Obligations.ReturnFromException : Prop :=
  ∀ s : State, s.supervisor = true → s.mappedAt (s.a 7) 4 = true → s.mappedAt (s.a 7 + 4) 4 = true →
    let p := s.access .read (s.a 7) .l
    let q := p.2.access .read (s.a 7 + 4) .l
    4 ≤ (p.1.extractLsb' 28 4).toNat → (p.1.extractLsb' 28 4).toNat ≤ 7 →
    exec .rte s = .next
      { q.2 with
        ssp := s.a 7 + 8 + (p.1.extractLsb' 28 2).setWidth 32
        sr := p.1.extractLsb' 0 16 &&& 0xB71F
        pc := q.1 }

/-- 60 R443; 46 R398: RTE in supervisor mode with a format outside 4 to 7 raises a format error, vector 14, with its own
address stacked, before it changes any state. That both long words are read first, and what reading a device
leaves is kept, is the model's reading (DEDUCED, log 25). -/
def Obligations.FormatError : Prop :=
  ∀ s : State, s.supervisor = true → s.mappedAt (s.a 7) 4 = true → s.mappedAt (s.a 7 + 4) 4 = true →
    let p := s.access .read (s.a 7) .l
    let q := p.2.access .read (s.a 7 + 4) .l
    ((p.1.extractLsb' 28 4).toNat < 4 ∨ 7 < (p.1.extractLsb' 28 4).toNat) →
    exec .rte s = q.2.enter 14 s.pc none ∧
      (s.ioAt (s.a 7) 4 = false → s.ioAt (s.a 7 + 4) 4 = false → q.2 = s)

/-- Entry and return are inverse (60 R434, R447; 46 R398): an exception entered from any state whose SR has no
reserved bit set, and an RTE in its handler, give back SR, the stack pointers, every register and the stacked
PC; memory differs in the frame alone. -/
def Obligations.EntryThenReturn : Prop :=
  ∀ (s t u : State) (vec : BitVec 8) (pc : Long) (level : Option (BitVec 3)), s.mem.wf = true →
    s.sr &&& ~~~srMask = 0 →
    let sp := (State.a { s with sr := entrySr s.sr level } 7) &&& 0xFFFFFFFC
    s.plainAt (sp - 4) 4 = true → s.plainAt (sp - 8) 4 = true →
    s.plainAt (s.vbr + 4 * vec.setWidth 32) 4 = true →
    s.enter vec pc level = .next t → exec .rte t = .next u →
    u.sr = s.sr ∧ u.ssp = s.ssp ∧ u.usp = s.usp ∧ u.pc = pc ∧ u.dregs = s.dregs ∧ u.aregs = s.aregs ∧
      u.vbr = s.vbr ∧ u.ctrl = s.ctrl ∧ (∀ k, k ∉ spanAddrs (sp - 8) 8 → u.byteAt k = s.byteAt k)

/-- Only taking an exception leads from user to supervisor mode (10 R41; 60 R434, R436; 46 R390): a step that
does ends at a handler, with the after-exception mark set. -/
def Obligations.SupervisorOnlyByException : Prop :=
  ∀ s t : State, s.supervisor = false → step s = .next t → t.supervisor = true → t.afterException = true

/-! ### Frames, over every instruction -/

/-- 10 R55 and files 41 to 46: an instruction that raises no exception leaves every data register but those its
rule writes, every address register but those its rule or an auto mode writes, and the stack pointer of the other
mode (MOVE to USP, MOVEC and a return name the other one). -/
def Obligations.RegisterFrame : Prop :=
  ∀ (i : Instr) (s t : State), s.afterException = false → exec i s = .next t → t.afterException = false →
    (∀ n, n ∉ Instr.writesD i → t.d n = s.d n) ∧
    (∀ n, n ≠ 7 → n ∉ Instr.writesA i → t.a n = s.a n) ∧
    (i.op ≠ .moveToUsp → i.op ≠ .movec → 7 ∉ Instr.writesA i → t.ssp = s.ssp ∧ t.usp = s.usp) ∧
    (i.op ≠ .moveToUsp → i.op ≠ .movec → if s.onUsp then t.ssp = s.ssp else t.usp = s.usp)

/-- Files 41 to 46: an instruction that raises no exception leaves every byte of memory outside the spans it
stores to, each computed as its meaning computes it; one that stores nothing leaves every byte. -/
def Obligations.MemoryFrame : Prop :=
  ∀ (i : Instr) (s t : State), s.afterException = false → exec i s = .next t → t.afterException = false →
    ∀ k, (∀ p ∈ Instr.stores i s, k ∉ spanAddrs p.1 p.2) → t.byteAt k = s.byteAt k

/-- 10 R55: the flags an instruction's rule does not list are unchanged: none for the rows that write no flag, all
but Z for the bit instructions, X for every row that does not write it, and no flag for ADDQ and SUBQ to An. -/
def Obligations.FlagFrame : Prop :=
  ∀ (i : Instr) (s t : State), exec i s = .next t →
    (keepsFlags i.op = true → t.ccr = s.ccr) ∧
    (writesZOnly i.op = true → t.ccr = { s.ccr with z := t.ccr.z }) ∧
    (writesX i.op = false → t.ccr.x = s.ccr.x) ∧
    (∀ q n, i = .addq q (.an n) ∨ i = .subq q (.an n) → t.ccr = s.ccr)

/-- Files 41 to 46: an instruction that raises no exception leaves the parameters, the marks and the requests;
VBR and the control registers but for MOVEC; the run state but for STOP and HALT; SR[15:5] but for MOVE to SR, RTE
and STOP. -/
def Obligations.SystemFrame : Prop :=
  ∀ (i : Instr) (s t : State), s.afterException = false → exec i s = .next t → t.afterException = false →
    t.cfg = s.cfg ∧ t.fault = s.fault ∧ t.refused = s.refused ∧ t.ipl = s.ipl ∧ t.iplPrev = s.iplPrev ∧
      t.cursor = s.cursor ∧ s.ioLog <+: t.ioLog ∧
      (i.op ≠ .movec → t.vbr = s.vbr ∧ t.ctrl = s.ctrl) ∧
      (i.op ≠ .stop → i.op ≠ .halt → t.runState = s.runState) ∧
      (writesSr i.op = false → t.sr.extractLsb' 5 11 = s.sr.extractLsb' 5 11)

/-! ### What each instruction does -/

/-- MOVE.B, MOVE.W, MOVE.L (41 R201, execution): with both operands' bytes mapped, the source is read, then the
destination resolved and written; N and Z are the value's, V and C 0, X stays. -/
def Obligations.MoveCopies : Prop :=
  ∀ m ∈ [(Size.b, Instr.moveB), (.w, .moveW), (.l, .moveL)], ∀ (s : State) (src dst : Ea),
    let p := s.source m.1 src
    s.reaches m.1 src = true → Ea.isPlace dst = true → p.2.reaches m.1 dst = true →
    exec (m.2 src dst) s = .next
      (((p.2.autoUpdate m.1 dst).written m.1 p.1 (p.2.locate m.1 dst)).setCcr
        { x := s.ccr.x, n := p.1.getLsbD (8 * m.1.bytes - 1), z := p.1 == 0, v := false, c := false }).done

/-- MOVEA.W, MOVEA.L, MVS, MVZ (41 R202, R205, R206, execution): the value read, extended to a long word, goes to
the register; MOVEA writes no flag, MVS and MVZ those of the long word. -/
def Obligations.MoveExtendsIntoRegister : Prop :=
  ∀ (s : State) (src : Ea) (x : RegNo),
    (s.reaches .w src = true → let p := s.source .w src
      exec (.moveaW src x) s = .next (p.2.setA x ((p.1.setWidth 16).signExtend 32)).done ∧
      exec (.mvsW src x) s = .next ((p.2.setD x ((p.1.setWidth 16).signExtend 32)).setCcr
        (resultFlags s.ccr ((p.1.setWidth 16).signExtend 32))).done ∧
      exec (.mvzW src x) s = .next ((p.2.setD x p.1).setCcr (resultFlags s.ccr p.1)).done) ∧
    (s.reaches .b src = true → let p := s.source .b src
      exec (.mvsB src x) s = .next ((p.2.setD x ((p.1.setWidth 8).signExtend 32)).setCcr
        (resultFlags s.ccr ((p.1.setWidth 8).signExtend 32))).done ∧
      exec (.mvzB src x) s = .next ((p.2.setD x p.1).setCcr (resultFlags s.ccr p.1)).done) ∧
    (s.reaches .l src = true → let p := s.source .l src
      exec (.moveaL src x) s = .next (p.2.setA x p.1).done)

/-- MOVEQ, MOV3Q and CLR (41 R203, R204, R213, execution): the quick value as a long word, 0 meaning -1 for MOV3Q,
which to An writes the flags only if MOV3Q_AN_FLAGS; CLR writes 0 without a read, sets Z and clears N, V, C. -/
def Obligations.MoveQuickAndClear : Prop :=
  ∀ (s : State) (d8 : Byte) (x : RegNo) (q : BitVec 3) (dst : Ea),
    exec (.moveq d8 x) s = .next
      ((s.setD x (d8.signExtend 32)).setCcr (resultFlags s.ccr (d8.signExtend 32))).done ∧
    (Ea.isPlace dst = true → s.reaches .l dst = true →
      let v : Long := if q = 0 then -1 else BitVec.ofNat 32 q.toNat
      let u := (s.autoUpdate .l dst).written .l v (s.locate .l dst)
      exec (.mov3q q dst) s = .next
        (if (∃ n, dst = .an n) ∧ s.cfg.mov3qAnFlags = false then u else u.setCcr (resultFlags s.ccr v)).done) ∧
    (∀ m ∈ [(Size.b, Instr.clrB), (.w, .clrW), (.l, .clrL)], Ea.isPlace dst = true → s.reaches m.1 dst = true →
      exec (m.2 dst) s = .next
        (((s.autoUpdate m.1 dst).written m.1 0 (s.locate m.1 dst)).setCcr
          { x := s.ccr.x, n := false, z := true, v := false, c := false }).done)

/-- MOVEM to memory (41 R207, execution): with the run of long words mapped, the instruction completes and changes
no register and no flag; in plain memory register i of the mask is stored at the k-th long word, k the number of
mask bits below i, with D0 first. -/
def Obligations.MovemStores : Prop :=
  ∀ (s : State) (mask : Word) (n : RegNo) (d16 : Word), ∀ dst ∈ [Ea.ind n, .disp n d16],
    let a := s.address .l dst
    let place := fun i : Nat => a + BitVec.ofNat 32 (4 * ((List.range i).filter fun j => mask.getLsbD j).length)
    (∀ i < 16, mask.getLsbD i = true → s.mappedAt (place i) 4 = true) →
    ∃ t, exec (.movemToMem mask dst) s = .next t ∧ t.pc = s.cursor ∧ t.sr = s.sr ∧ t.dregs = s.dregs ∧
      t.aregs = s.aregs ∧ t.ssp = s.ssp ∧ t.usp = s.usp ∧
      (s.mem.wf = true → (∀ i < 16, mask.getLsbD i = true → s.ioAt (place i) 4 = false) →
        ∀ i < 16, mask.getLsbD i = true →
          t.peek (place i) .l = if i < 8 then s.d (BitVec.ofNat 3 i) else s.a (BitVec.ofNat 3 (i - 8)))

/-- MOVEM from memory (41 R208, execution): with the run of long words mapped, the instruction completes and
changes no byte of memory and no flag; in plain memory register i of the mask takes the k-th long word at the
addresses of the base's value at the start, and the other registers stay. -/
def Obligations.MovemLoads : Prop :=
  ∀ (s : State) (mask : Word) (n : RegNo) (d16 : Word), ∀ src ∈ [Ea.ind n, .disp n d16],
    let a := s.address .l src
    let place := fun i : Nat => a + BitVec.ofNat 32 (4 * ((List.range i).filter fun j => mask.getLsbD j).length)
    (∀ i < 16, mask.getLsbD i = true → s.mappedAt (place i) 4 = true) →
    ∃ t, exec (.movemToRegs src mask) s = .next t ∧ t.pc = s.cursor ∧ t.sr = s.sr ∧ t.mem = s.mem ∧
      ((∀ i < 16, mask.getLsbD i = true → s.ioAt (place i) 4 = false) →
        ∀ i < 8,
          t.d (BitVec.ofNat 3 i) =
            (if mask.getLsbD i then s.peek (place i) .l else s.d (BitVec.ofNat 3 i)) ∧
          t.a (BitVec.ofNat 3 i) =
            if mask.getLsbD (8 + i) then s.peek (place (8 + i)) .l else s.a (BitVec.ofNat 3 i))

/-- LEA, PEA, JMP, JSR (41 R209, R210; 45 R364, R365, execution): the address of a CONTROL operand, with no access
to it, goes to the register, to the stack, or to the PC; JSR pushes the next instruction's address. -/
def Obligations.AddressInstructions : Prop :=
  ∀ (s : State) (ea : Ea) (x : RegNo), ModeSet.has .control ea.mode = true → let a := s.address .l ea
    s.locate .l ea = .mem a ∧ exec (.lea ea x) s = .next (s.setA x a).done ∧
    exec (.jmp ea) s = .next (s.atPc a) ∧
    (s.mappedAt (s.a 7 - 4) 4 = true → let u := s.setA 7 (s.a 7 - 4)
      exec (.pea ea) s = .next (u.deposit (s.a 7 - 4) .l a).done ∧
      exec (.jsr ea) s = .next ((u.deposit (s.a 7 - 4) .l s.cursor).atPc a))

/-- LINK and UNLK (41 R211, R212, execution): LINK pushes the register, which takes the stack pointer, and adds the
displacement to the stack pointer; UNLK undoes it; A7 is refused. -/
def Obligations.LinkAndUnlink : Prop :=
  ∀ (s : State) (y : RegNo) (d16 : Word),
    (y ≠ 7 → s.mappedAt (s.a 7 - 4) 4 = true → let u := s.setA 7 (s.a 7 - 4)
      exec (.link y d16) s = .next
        (((u.deposit (s.a 7 - 4) .l (s.a y)).setA y (s.a 7 - 4)).setA 7 (s.a 7 - 4 + d16.signExtend 32)).done) ∧
    (y ≠ 7 → s.mappedAt (s.a y) 4 = true → let p := s.access .read (s.a y) .l
      exec (.unlk y) s = .next ((p.2.setA 7 (s.a y + 4)).setA y p.1).done) ∧
    exec (.link 7 d16) s = .refused (.stop (.unknownBehaviour 0x4E57) s) ∧
    exec (.unlk 7) s = .refused (.stop (.unknownBehaviour 0x4E5F) s)

/-- ADD, ADDI, ADDX, SUB, SUBI, SUBX into a data register, NEG and NEGX (42 R250, R253, R255, R256, R259, R261, R265,
R266, execution): the exact sum or difference modulo 2^32, with carry, borrow and signed overflow; ADDA and SUBA
(R252, R258): the address register after the source is read, and no flag. -/
def Obligations.AddSubtractIntoRegister : Prop :=
  ∀ (s : State) (src : Ea) (imm : Long) (y x : RegNo),
    let k := if s.ccr.x then 1 else 0
    (s.reaches .l src = true → let p := s.source .l src
      exec (.addEaDn src x) s = .next
        ((p.2.setD x (s.d x + p.1)).setCcr (exactAddFlags s.ccr false (s.d x) p.1 0)).done ∧
      exec (.subEaDn src x) s = .next
        ((p.2.setD x (s.d x - p.1)).setCcr (exactSubFlags s.ccr false (s.d x) p.1 0)).done ∧
      exec (.adda src x) s = .next (p.2.setA x (p.2.a x + p.1)).done ∧
      exec (.suba src x) s = .next (p.2.setA x (p.2.a x - p.1)).done) ∧
    exec (.addi imm x) s = .next
      ((s.setD x (s.d x + imm)).setCcr (exactAddFlags s.ccr false (s.d x) imm 0)).done ∧
    exec (.subi imm x) s = .next
      ((s.setD x (s.d x - imm)).setCcr (exactSubFlags s.ccr false (s.d x) imm 0)).done ∧
    exec (.addx y x) s = .next
      ((s.setD x (s.d x + s.d y + BitVec.ofNat 32 k)).setCcr (exactAddFlags s.ccr true (s.d x) (s.d y) k)).done ∧
    exec (.subx y x) s = .next
      ((s.setD x (s.d x - s.d y - BitVec.ofNat 32 k)).setCcr (exactSubFlags s.ccr true (s.d x) (s.d y) k)).done ∧
    exec (.neg x) s = .next ((s.setD x (-s.d x)).setCcr (exactSubFlags s.ccr false 0 (s.d x) 0)).done ∧
    exec (.negx x) s = .next
      ((s.setD x (-s.d x - BitVec.ofNat 32 k)).setCcr (exactSubFlags s.ccr true 0 (s.d x) k)).done

/-- ADD and SUB into a destination, ADDQ and SUBQ (42 R251, R254, R257, R260, execution): the operand is read and
written at one place; a quick field of 0 means 8; to An ADDQ and SUBQ write the register and no flag. -/
def Obligations.AddSubtractIntoPlace : Prop :=
  ∀ (s : State) (dst : Ea) (y n : RegNo) (q : BitVec 3),
    let v : Long := if q = 0 then 8 else BitVec.ofNat 32 q.toNat
    let p := s.source .l dst
    let put := fun (r : Long) (f : Ccr) => ((p.2.written .l r (s.locate .l dst)).setCcr f).done
    (Ea.isPlace dst = true → s.reaches .l dst = true →
      exec (.addDnEa y dst) s = .next (put (p.1 + s.d y) (exactAddFlags s.ccr false p.1 (s.d y) 0)) ∧
      exec (.subDnEa y dst) s = .next (put (p.1 - s.d y) (exactSubFlags s.ccr false p.1 (s.d y) 0)) ∧
      ((∀ m, dst ≠ .an m) →
        exec (.addq q dst) s = .next (put (p.1 + v) (exactAddFlags s.ccr false p.1 v 0)) ∧
        exec (.subq q dst) s = .next (put (p.1 - v) (exactSubFlags s.ccr false p.1 v 0)))) ∧
    exec (.addq q (.an n)) s = .next (s.setA n (s.a n + v)).done ∧
    exec (.subq q (.an n)) s = .next (s.setA n (s.a n - v)).done

/-- CMP, CMPA, CMPI and TST (42 R262, R263, R264, R270, execution): flags alone, of the truncated operands for CMP
and CMPI, of the sign-extended source and the whole register for CMPA; X stays. -/
def Obligations.CompareAndTest : Prop :=
  ∀ (s : State) (src : Ea) (x : RegNo),
    (∀ m ∈ [(Size.b, Instr.cmpB, Instr.tstB), (.w, .cmpW, .tstW), (.l, .cmpL, .tstL)],
      s.reaches m.1 src = true → let p := s.source m.1 src
      let d := m.1.trunc (s.d x)
      exec (m.2.1 src x) s = .next (p.2.setCcr (cmpFlags m.1 d p.1 (m.1.trunc (d - p.1)) s.ccr)).done ∧
      exec (m.2.2 src) s = .next (p.2.setCcr
        { x := s.ccr.x, n := p.1.getLsbD (8 * m.1.bytes - 1), z := p.1 == 0, v := false, c := false }).done) ∧
    (s.reaches .w src = true → let p := s.source .w src
      exec (.cmpaW src x) s = .next (p.2.setCcr
        { exactSubFlags s.ccr false (p.2.a x) ((p.1.setWidth 16).signExtend 32) 0 with x := s.ccr.x }).done) ∧
    (s.reaches .l src = true → let p := s.source .l src
      exec (.cmpaL src x) s = .next (p.2.setCcr
        { exactSubFlags s.ccr false (p.2.a x) p.1 0 with x := s.ccr.x }).done) ∧
    (∀ b : Byte, exec (.cmpiB b x) s = .next (s.setCcr (cmpFlags .b (zext8 (s.d x)) (b.setWidth 32)
      (zext8 (s.d x - b.setWidth 32)) s.ccr)).done) ∧
    (∀ w : Word, exec (.cmpiW w x) s = .next (s.setCcr (cmpFlags .w (zext16 (s.d x)) (w.setWidth 32)
      (zext16 (s.d x - w.setWidth 32)) s.ccr)).done) ∧
    ∀ l : Long, exec (.cmpiL l x) s = .next (s.setCcr
      { exactSubFlags s.ccr false (s.d x) l 0 with x := s.ccr.x }).done

/-- SWAP, EXT.W, EXT.L, EXTB, SATS, NOT (41 R214; 42 R267 to R269, R271; 44 R328, execution). -/
def Obligations.RegisterRearrangements : Prop :=
  ∀ (s : State) (x : RegNo), let d := s.d x
    let sw := (d.extractLsb' 0 16 : Word) ++ (d.extractLsb' 16 16 : Word)
    let w : Word := (d.setWidth 8).signExtend 16
    let el : Long := (d.setWidth 16).signExtend 32
    let eb : Long := (d.setWidth 8).signExtend 32
    let sat : Long := if s.ccr.v then (if d.getLsbD 31 then 0x7FFFFFFF else 0x80000000) else d
    exec (.swap x) s = .next ((s.setD x sw).setCcr (resultFlags s.ccr sw)).done ∧
    exec (.extW x) s = .next ((s.setD x ((d.extractLsb' 16 16 : Word) ++ w)).setCcr
      { x := s.ccr.x, n := w.msb, z := w == 0, v := false, c := false }).done ∧
    exec (.extL x) s = .next ((s.setD x el).setCcr (resultFlags s.ccr el)).done ∧
    exec (.extbL x) s = .next ((s.setD x eb).setCcr (resultFlags s.ccr eb)).done ∧
    exec (.sats x) s = .next ((s.setD x sat).setCcr (resultFlags s.ccr sat)).done ∧
    exec (.notL x) s = .next ((s.setD x (~~~d)).setCcr (resultFlags s.ccr (~~~d))).done

/-- AND, OR, EOR and their immediate forms (44 R320 to R327, execution). -/
def Obligations.LogicResults : Prop :=
  ∀ (s : State) (src dst : Ea) (imm : Long) (y x : RegNo),
    let q := s.source .l dst
    let put := fun (r : Long) => ((q.2.written .l r (s.locate .l dst)).setCcr (resultFlags s.ccr r)).done
    let set := fun (u : State) (r : Long) => ((u.setD x r).setCcr (resultFlags s.ccr r)).done
    (s.reaches .l src = true → let p := s.source .l src
      exec (.andEaDn src x) s = .next (set p.2 (s.d x &&& p.1)) ∧
      exec (.orEaDn src x) s = .next (set p.2 (s.d x ||| p.1))) ∧
    (Ea.isPlace dst = true → s.reaches .l dst = true →
      exec (.andDnEa y dst) s = .next (put (q.1 &&& s.d y)) ∧
      exec (.orDnEa y dst) s = .next (put (q.1 ||| s.d y)) ∧
      exec (.eor y dst) s = .next (put (q.1 ^^^ s.d y))) ∧
    exec (.andi imm x) s = .next (set s (s.d x &&& imm)) ∧
    exec (.ori imm x) s = .next (set s (s.d x ||| imm)) ∧
    exec (.eori imm x) s = .next (set s (s.d x ^^^ imm))

/-- MULU.W, MULS.W, MULU.L, MULS.L (43 R302 to R305, execution): the product over the integers modulo 2^32. -/
def Obligations.Products : Prop :=
  ∀ (s : State) (src : Ea) (x : RegNo),
    (s.reaches .w src = true → let p := s.source .w src
      let u : Long := BitVec.ofNat 32 (((s.d x).setWidth 16).toNat * p.1.toNat)
      let i : Long := BitVec.ofInt 32 (((s.d x).setWidth 16).toInt * (p.1.setWidth 16).toInt)
      exec (.muluW src x) s = .next ((p.2.setD x u).setCcr (resultFlags s.ccr u)).done ∧
      exec (.mulsW src x) s = .next ((p.2.setD x i).setCcr (resultFlags s.ccr i)).done) ∧
    (s.reaches .l src = true → let p := s.source .l src
      let u : Long := BitVec.ofNat 32 ((s.d x).toNat * p.1.toNat)
      let i : Long := BitVec.ofInt 32 ((s.d x).toInt * p.1.toInt)
      exec (.muluL src x) s = .next ((p.2.setD x u).setCcr (resultFlags s.ccr u)).done ∧
      exec (.mulsL src x) s = .next ((p.2.setD x i).setCcr (resultFlags s.ccr i)).done ∧ u = i)

/-- DIVU.W, DIVS.W, DIVU.L, DIVS.L with a divisor that is not 0 (43 R306 to R309, execution): the quotient, with
the remainder above it at word size; a quotient that does not fit sets V, clears C, leaves N and Z free and keeps
the register. -/
def Obligations.Quotients : Prop :=
  ∀ (s : State) (src : Ea) (x : RegNo),
    let small := fun (u : State) (q rm : Int) => ((u.setD x ((BitVec.ofInt 16 rm) ++ (BitVec.ofInt 16 q))).setCcr
      { x := s.ccr.x, n := (BitVec.ofInt 16 q).msb, z := BitVec.ofInt 16 q == 0, v := false, c := false }).done
    let ovf := fun (r : Result) (u : State) => ∃ n z, r = .next (State.setCcr { u with drawCount := u.drawCount + 2 }
      { x := s.ccr.x, n := n, z := z, v := true, c := false }).done
    let long := fun (u : State) (q : Long) => ((u.setD x q).setCcr (resultFlags s.ccr q)).done
    (s.reaches .w src = true → let p := s.source .w src
      p.1 ≠ 0 →
      let qu := (s.d x).toNat / p.1.toNat
      let qs := (s.d x).toInt.tdiv (p.1.setWidth 16).toInt
      (qu ≤ 0xFFFF → exec (.divuW src x) s = .next (small p.2 qu ((s.d x).toNat % p.1.toNat : Nat))) ∧
      (0xFFFF < qu → ovf (exec (.divuW src x) s) p.2) ∧
      (-32768 ≤ qs ∧ qs ≤ 32767 →
        exec (.divsW src x) s = .next (small p.2 qs ((s.d x).toInt - qs * (p.1.setWidth 16).toInt))) ∧
      (qs < -32768 ∨ 32767 < qs → ovf (exec (.divsW src x) s) p.2)) ∧
    (s.reaches .l src = true → let p := s.source .l src
      p.1 ≠ 0 →
      exec (.divuL src x) s = .next (long p.2 (BitVec.ofNat 32 ((s.d x).toNat / p.1.toNat))) ∧
      (¬(s.d x = 0x80000000 ∧ p.1 = 0xFFFFFFFF) →
        exec (.divsL src x) s = .next (long p.2 (BitVec.ofInt 32 ((s.d x).toInt.tdiv p.1.toInt)))) ∧
      (s.d x = 0x80000000 ∧ p.1 = 0xFFFFFFFF → ovf (exec (.divsL src x) s) p.2))

/-- REMU.L and REMS.L with a divisor that is not 0 (43 R310, R311, execution): the remainder, with the dividend's
sign, into Dw; N and Z are free, V and C 0; for -2^31 by -1 Dw and V are free too. -/
def Obligations.Remainders : Prop :=
  ∀ (s : State) (src : Ea) (w x : RegNo), s.reaches .l src = true → let p := s.source .l src
    p.1 ≠ 0 →
    let put := fun (r : Result) (v : Long) => ∃ n z, r = .next
      ((State.setD { p.2 with drawCount := p.2.drawCount + 2 } w v).setCcr
        { x := s.ccr.x, n := n, z := z, v := false, c := false }).done
    put (exec (.remuL src w x) s) (BitVec.ofNat 32 ((s.d x).toNat % p.1.toNat)) ∧
    (¬(s.d x = 0x80000000 ∧ p.1 = 0xFFFFFFFF) →
      put (exec (.remsL src w x) s) (BitVec.ofInt 32 ((s.d x).toInt.tmod p.1.toInt))) ∧
    (s.d x = 0x80000000 ∧ p.1 = 0xFFFFFFFF → ∃ r n z v, exec (.remsL src w x) s = .next
      ((State.setD { p.2 with drawCount := p.2.drawCount + 4 } w r).setCcr
        { x := s.ccr.x, n := n, z := z, v := v, c := false }).done)

/-- Divide by zero (43 section 3; 60 R440): with the divisor read and 0, every DIV and REM writes free N, Z and V
and C 0, keeps X and every data register, leaves An of an auto mode before or after its change, and takes vector 5
with its own address stacked; else the state is the one after the divisor is read, both stack pointers, the run state
and the marks among it. -/
def Obligations.DivideByZero : Prop :=
  ∀ (s : State) (src : Ea) (w x : RegNo),
    ∀ i ∈ [Instr.divuW src x, .divsW src x, .divuL src x, .divsL src x, .remuL src w x, .remsL src w x],
    s.reaches i.row.eaSize src = true → (s.source i.row.eaSize src).1 = 0 →
    ∃ u : State, exec i s = u.enter 5 s.pc none ∧ u.ccr.x = s.ccr.x ∧ u.ccr.c = false ∧
      u.sr.extractLsb' 5 11 = s.sr.extractLsb' 5 11 ∧ u.dregs = s.dregs ∧ u.mem = s.mem ∧
      u.cfg = s.cfg ∧ u.vbr = s.vbr ∧ u.ctrl = s.ctrl ∧ u.runState = s.runState ∧ u.fault = s.fault ∧
      u.refused = s.refused ∧ u.afterException = s.afterException ∧
      u = { (s.source i.row.eaSize src).2 with
            sr := u.sr
            aregs := u.aregs
            ssp := u.ssp
            usp := u.usp
            drawCount := u.drawCount } ∧
      (∀ n, n ∉ Ea.autoRegs src → u.a n = s.a n) ∧
      (7 ∉ Ea.autoRegs src → u.ssp = s.ssp ∧ u.usp = s.usp) ∧
      (if s.onUsp then u.ssp = s.ssp else u.usp = s.usp) ∧
      (∀ n ∈ Ea.autoRegs src, u.a n = s.a n ∨ u.a n = (s.autoUpdate i.row.eaSize src).a n)

/-- ASL, LSL, ASR, LSR, both forms (44 R330 to R333, execution), a count of 0 in the field meaning 8 and a register
count taken modulo 64. Left: the value times 2^c modulo 2^32, the carry bit 32 of the exact product. Right: the
signed or unsigned value divided by 2^c and rounded down, the carry the last bit shifted out. C and X take the
carry, V is 0; a count of 0 clears C and keeps X. -/
def Obligations.Shifts : Prop :=
  ∀ (s : State) (q : BitVec 3) (y x : RegNo),
    let put : Nat → Long → Bool → Result := fun c r cy => .next
      ((s.setD x r).setCcr
        { x := if c = 0 then s.ccr.x else cy, n := r.getLsbD 31, z := r == 0, v := false, c := cy }).done
    let left := fun c : Nat => put c (BitVec.ofNat 32 ((s.d x).toNat * 2 ^ c))
      (decide ((s.d x).toNat * 2 ^ c / 2 ^ 32 % 2 = 1))
    let right := fun (d : Int) (c : Nat) => put c (BitVec.ofInt 32 (d / 2 ^ c))
      (decide (c ≠ 0 ∧ d / 2 ^ (c - 1) % 2 = 1))
    let imm := if q = 0 then 8 else q.toNat
    let reg := (s.d y).toNat % 64
    exec (.aslImm q x) s = left imm ∧ exec (.aslReg y x) s = left reg ∧
    exec (.lslImm q x) s = left imm ∧ exec (.lslReg y x) s = left reg ∧
    exec (.asrImm q x) s = right (s.d x).toInt imm ∧ exec (.asrReg y x) s = right (s.d x).toInt reg ∧
    exec (.lsrImm q x) s = right (s.d x).toNat imm ∧ exec (.lsrReg y x) s = right (s.d x).toNat reg

/-- BTST, BCHG, BCLR, BSET, both forms (44 R334 to R338, execution): on Dx bit n mod 32 of the long word, elsewhere
bit n mod 8 of the byte; Z is the bit before, inverted, and the only flag; BTST writes nothing. -/
def Obligations.BitInstructions : Prop :=
  ∀ (s : State) (dst : Ea) (y x : RegNo) (n : Byte),
    ∀ m ∈ [(Instr.btstReg y, (s.d y).toNat, fun v _ => v), (.btstImm n, n.toNat, fun v _ => v),
      (.bchgReg y, (s.d y).toNat, fun v b => v ^^^ b), (.bchgImm n, n.toNat, fun v b => v ^^^ b),
      (.bclrReg y, (s.d y).toNat, fun v b => v &&& ~~~b), (.bclrImm n, n.toNat, fun v b => v &&& ~~~b),
      (.bsetReg y, (s.d y).toNat, fun v b => v ||| b), (.bsetImm n, n.toNat, fun (v b : Long) => v ||| b)],
    exec (m.1 (.dn x)) s = .next ((s.setD x (m.2.2 (s.d x) (BitVec.ofNat 32 (2 ^ (m.2.1 % 32))))).setCcr
      { s.ccr with z := !(s.d x).getLsbD (m.2.1 % 32) }).done ∧
    ((∀ r, dst ≠ .dn r) → Ea.isPlace dst = true → s.reaches .b dst = true → let p := s.source .b dst
      let f := { s.ccr with z := !p.1.getLsbD (m.2.1 % 8) }
      exec (m.1 dst) s = .next (if testsOnly (m.1 dst).op then (p.2.setCcr f).done
        else ((p.2.written .b (m.2.2 p.1 (BitVec.ofNat 32 (2 ^ (m.2.1 % 8)))) (s.locate .b dst)).setCcr f).done))

/-- BITREV, BYTEREV, FF1 and TAS (44 R339 to R342, execution): bit i goes to bit 31 - i; byte i to byte 3 - i; the
number of leading zeros, with the source's N and Z; the byte tested and its bit 7 set at the same place. -/
def Obligations.BitFieldHelpersAndTas : Prop :=
  ∀ (s : State) (x : RegNo) (dst : Ea),
    (∃ r : Long, exec (.bitrev x) s = .next (s.setD x r).done ∧
      ∀ i < 32, r.getLsbD i = (s.d x).getLsbD (31 - i)) ∧
    (∃ r : Long, exec (.byterev x) s = .next (s.setD x r).done ∧
      ∀ k < 4, r.extractLsb' (8 * k) 8 = (s.d x).extractLsb' (8 * (3 - k)) 8) ∧
    (∃ r : Nat, r ≤ 32 ∧ exec (.ff1 x) s = .next ((s.setD x (BitVec.ofNat 32 r)).setCcr
        { x := s.ccr.x, n := (s.d x).getLsbD 31, z := s.d x == 0, v := false, c := false }).done ∧
      (∀ i < r, (s.d x).getLsbD (31 - i) = false) ∧ (r < 32 → (s.d x).getLsbD (31 - r) = true)) ∧
    (Ea.isPlace dst = true → s.reaches .b dst = true → let p := s.source .b dst
      exec (.tas dst) s = .next ((p.2.written .b (p.1 ||| 0x80) (s.locate .b dst)).setCcr
        { x := s.ccr.x, n := p.1.getLsbD 7, z := p.1 == 0, v := false, c := false }).done)

/-- Bcc, BRA, BSR and RTS (45 R360 to R363, R366, execution): the target is the address after the opcode word plus
the displacement in every form; a branch not taken goes on; BSR pushes the next instruction's address; RTS pulls
the PC. -/
def Obligations.BranchesAndReturns : Prop :=
  ∀ (s : State) (c : Cond) (d8 : Byte) (d16 : Word) (d32 : Long),
    let go := fun d : Long => s.atPc (s.pc + 2 + d)
    let cond : Long → Result := fun d => .next (if s.ccr.holds c then go d else s.done)
    exec (.bccB c d8) s = cond (d8.signExtend 32) ∧ exec (.bccW c d16) s = cond (d16.signExtend 32) ∧
    exec (.bccL c d32) s = cond d32 ∧
    exec (.braB d8) s = .next (go (d8.signExtend 32)) ∧ exec (.braW d16) s = .next (go (d16.signExtend 32)) ∧
    exec (.braL d32) s = .next (go d32) ∧
    (s.mappedAt (s.a 7 - 4) 4 = true →
      let call := fun d : Long =>
        ((s.setA 7 (s.a 7 - 4)).deposit (s.a 7 - 4) .l s.cursor).atPc (s.pc + 2 + d)
      exec (.bsrB d8) s = .next (call (d8.signExtend 32)) ∧
      exec (.bsrW d16) s = .next (call (d16.signExtend 32)) ∧ exec (.bsrL d32) s = .next (call d32)) ∧
    (s.mappedAt (s.a 7) 4 = true → let p := s.access .read (s.a 7) .l
      exec .rts s = .next ((p.2.setA 7 (s.a 7 + 4)).atPc p.1))

/-- Scc, TPF, NOP, PULSE (45 R367 to R369; 46 R401, execution): Scc sets the low byte to ones or zeros by the
condition and keeps bits 31:8; the others only go on. -/
def Obligations.SetAndNoOperation : Prop :=
  ∀ (s : State) (c : Cond) (x : RegNo) (w : Word) (l : Long),
    exec (.scc c x) s = .next (s.setD x
      (((s.d x).extractLsb' 8 24 : BitVec 24) ++ (if s.ccr.holds c then 0xFF else 0x00 : Byte))).done ∧
    (∀ i ∈ [Instr.tpf, .tpfW w, .tpfL l, .nop, .pulse], exec i s = .next s.done)

/-- TRAP and ILLEGAL (45 R370, R371; 60 R441, execution): TRAP #v takes vector 32 + v with the next instruction's
address stacked, ILLEGAL vector 4 with its own; over mapped memory both go on at the handler. -/
def Obligations.TrapsEnterHandlers : Prop :=
  ∀ (s : State) (v : BitVec 4),
    exec (.trap v) s = s.enter (32 + v.setWidth 8) s.cursor none ∧ exec .illegal s = s.enter 4 s.pc none ∧
    (s.canEnter (.trap v) = true → ∃ t, exec (.trap v) s = .next t ∧ t.afterException = true) ∧
    (s.canEnter .illegalInstruction = true → ∃ t, exec .illegal s = .next t ∧ t.afterException = true)

/-- MOVE from and to SR, CCR and USP (46 R391 to R396, execution; the privileged ones in supervisor mode). -/
def Obligations.StatusMoves : Prop :=
  ∀ (s : State) (r : RegNo) (ea : Ea),
    (s.supervisor = true →
      exec (.moveFromSr r) s = .next (s.setD r (((s.d r).extractLsb' 16 16 : Word) ++ s.sr)).done ∧
      (s.reaches .w ea = true → let p := s.source .w ea
        exec (.moveToSr ea) s = .next { p.2 with sr := p.1.setWidth 16 &&& 0xB71F, pc := p.2.cursor }) ∧
      (s.cfg.dualStack = true →
        exec (.moveToUsp r) s = .next { s with usp := s.a r, pc := s.cursor } ∧
        exec (.moveFromUsp r) s = .next (s.setA r s.usp).done) ∧
      (s.cfg.dualStack = false →
        exec (.moveToUsp r) s = .next { s with ssp := s.a r, pc := s.cursor } ∧
        exec (.moveFromUsp r) s = .next (s.setA r s.ssp).done)) ∧
    exec (.moveFromCcr r) s = .next (s.setD r
      (((s.d r).extractLsb' 16 16 : Word) ++ (s.sr &&& 0x00FF))).done ∧
    (s.reaches .w ea = true → let p := s.source .w ea
      exec (.moveToCcr ea) s = .next
        { p.2 with sr := (p.2.sr &&& 0xFFE0) ||| (p.1.setWidth 16 &&& 0x001F), pc := p.2.cursor })

/-- MOVEC, STOP and HALT (46 R397, R399, R400, execution). MOVEC in supervisor mode: VBR keeps bits 31:20, OTHER_A7
is the user stack pointer, any other existing code holds the value and every other one stays; a code that does not
exist is refused. STOP loads SR masked and stops; HALT halts, in supervisor mode or under USER_HALT; the PC goes
past the instruction. -/
def Obligations.ControlRegistersStopAndHalt : Prop :=
  (∀ (s : State) (imm : Word),
    (s.supervisor = true → exec (.stop imm) s = .next
      { s with sr := imm &&& 0xB71F, pc := s.cursor, runState := .stopped }) ∧
    (s.supervisor = true ∨ s.cfg.userHalt = true → exec .halt s = .next
      { s with pc := s.cursor, runState := .halted })) ∧
  ∀ (s : State) (ry : GReg) (code : BitVec 12), s.supervisor = true →
    (code ∉ s.cfg.controlRegs → exec (.movec ry code) s = .refused (.stop (.unknownControlRegister code) s)) ∧
    (code ∈ s.cfg.controlRegs → ctrlWf s.ctrl = true → ∃ t, exec (.movec ry code) s = .next t ∧ t.pc = s.cursor ∧
      (code = 0x801 → t.vbr = s.reg ry &&& 0xFFF00000 ∧ t.ctrl = s.ctrl ∧ t.usp = s.usp ∧ t.ssp = s.ssp) ∧
      (code = 0x800 → t.userSp = s.reg ry ∧ t.vbr = s.vbr ∧ t.ctrl = s.ctrl ∧
        (s.cfg.dualStack = true → t.ssp = s.ssp)) ∧
      (code ≠ 0x800 → code ≠ 0x801 → t.control code = s.reg ry ∧ t.usp = s.usp ∧ t.ssp = s.ssp) ∧
      (∀ other, other ≠ code → t.control other = s.control other) ∧
      t.sr = s.sr ∧ t.mem = s.mem ∧ t.dregs = s.dregs ∧ t.aregs = s.aregs)

/-- 46 R402 to R406, the step outcomes: WDDATA is refused in every mode, and STRLDSR (whatever its second word),
CPUSHL, INTOUCH and WDEBUG in supervisor mode, and no state changes. That the refusal is the meaning of the instruction
is the model's form (DEDUCED, log 13: the spec refuses before Execute), and so is WDEBUG with a second word other than
0x0003 (DEDUCED, log 14: R406 names 0x0003 alone). -/
def Obligations.NotSimulatedIsRefused : Prop :=
  ∀ (s : State) (ea : Ea) (r : RegNo) (w v : Word),
    (∀ i ∈ [Instr.wddataB ea, .wddataW ea, .wddataL ea], exec i s = .refused (.stop (.notSimulated "WDDATA") s)) ∧
    (s.supervisor = true →
      exec (.strldsr w v) s = .refused (.stop (.notSimulated "STRLDSR") s) ∧
      (∀ i ∈ [Instr.cpushlDc r, .cpushlIc r, .cpushlBc r], exec i s = .refused (.stop (.notSimulated "CPUSHL") s)) ∧
      exec (.intouch r) s = .refused (.stop (.notSimulated "INTOUCH") s) ∧
      exec (.wdebug w ea) s = .refused (.stop (.notSimulated "WDEBUG") s))
end

