-- ==== Sys2Proof/Laws/Sparse.lean ====
section
/-! SUPPORT. Sparse maps: a read after a write, and the canonical form kept by every write. -/

namespace Sys2Proof.Machine

variable {w : Nat}

@[simp] theorem Sparse.get_nil (k : Nat) : Sparse.get (w := w) [] k = 0 := rfl

theorem Sparse.get_cons (j : Nat) (v : BitVec w) (m : Sparse w) (k : Nat) :
    Sparse.get ((j, v) :: m) k = if j = k then v else Sparse.get m k := rfl

/-- A map whose keys start above `k` reads 0 at `k`. -/
theorem Sparse.get_below {hi lo : Nat} {m : Sparse w} (h : Sparse.wfFrom hi lo m = true) {k : Nat} (hk : k < lo) :
    Sparse.get m k = 0 := by
  induction m generalizing lo with
  | nil => rfl
  | cons p m ih =>
    obtain ⟨j, v⟩ := p
    simp only [Sparse.wfFrom, Bool.and_eq_true, decide_eq_true_eq] at h
    have hj : ¬ j = k := by omega
    rw [Sparse.get_cons, if_neg hj, ih h.2 (by omega)]

/-- An unlisted key past the bound reads 0. -/
theorem Sparse.get_above {hi lo : Nat} {m : Sparse w} (h : Sparse.wfFrom hi lo m = true) {k : Nat} (hk : hi ≤ k) :
    Sparse.get m k = 0 := by
  induction m generalizing lo with
  | nil => rfl
  | cons p m ih =>
    obtain ⟨j, v⟩ := p
    simp only [Sparse.wfFrom, Bool.and_eq_true, decide_eq_true_eq] at h
    have hj : ¬ j = k := by omega
    rw [Sparse.get_cons, if_neg hj, ih h.2]

theorem Sparse.wfFrom_mono {hi lo lo' : Nat} {m : Sparse w} (h : Sparse.wfFrom hi lo m = true) (hl : lo' ≤ lo) :
    Sparse.wfFrom hi lo' m = true := by
  cases m with
  | nil => rfl
  | cons p m =>
    obtain ⟨j, v⟩ := p
    simp only [Sparse.wfFrom, Bool.and_eq_true, decide_eq_true_eq] at h ⊢
    exact ⟨⟨⟨by omega, h.1.1.2⟩, h.1.2⟩, h.2⟩

/-- Putting an entry before the rest keeps the form. -/
theorem Sparse.put_wfFrom {hi lo k : Nat} {v : BitVec w} {m : Sparse w} (hlo : lo ≤ k) (hhi : k < hi)
    (h : Sparse.wfFrom hi (k + 1) m = true) : Sparse.wfFrom hi lo (Sparse.put k v m) = true := by
  unfold Sparse.put
  split
  · exact Sparse.wfFrom_mono h (by omega)
  · simp only [Sparse.wfFrom, Bool.and_eq_true, decide_eq_true_eq, bne_iff_ne]
    exact ⟨⟨⟨hlo, hhi⟩, by assumption⟩, h⟩

/-- A write keeps the canonical form. -/
theorem Sparse.set_wfFrom {hi lo k : Nat} {v : BitVec w} {m : Sparse w} (hlo : lo ≤ k) (hhi : k < hi)
    (h : Sparse.wfFrom hi lo m = true) : Sparse.wfFrom hi lo (Sparse.set m k v) = true := by
  induction m generalizing lo with
  | nil => exact Sparse.put_wfFrom hlo hhi rfl
  | cons p m ih =>
    obtain ⟨j, u⟩ := p
    simp only [Sparse.set]
    simp only [Sparse.wfFrom, Bool.and_eq_true, decide_eq_true_eq, bne_iff_ne] at h
    obtain ⟨⟨⟨h1, h2⟩, h3⟩, h4⟩ := h
    split
    · apply Sparse.put_wfFrom hlo hhi
      simp only [Sparse.wfFrom, Bool.and_eq_true, decide_eq_true_eq, bne_iff_ne]
      exact ⟨⟨⟨by omega, h2⟩, h3⟩, h4⟩
    · split
      · rename_i hkj
        exact Sparse.put_wfFrom hlo hhi (by rw [hkj]; exact h4)
      · simp only [Sparse.wfFrom, Bool.and_eq_true, decide_eq_true_eq, bne_iff_ne]
        exact ⟨⟨⟨h1, h2⟩, h3⟩, ih (by omega) h4⟩

theorem Sparse.get_put {hi lo k : Nat} {v : BitVec w} {m : Sparse w}
    (h : Sparse.wfFrom hi (lo + 1) m = true) (hk : k ≤ lo) (j : Nat) :
    Sparse.get (Sparse.put k v m) j = if k = j then v else Sparse.get m j := by
  unfold Sparse.put
  split
  · rename_i hv
    split
    · subst_vars
      rw [Sparse.get_below h (by omega)]
    · rfl
  · rfl

/-- A read after a write, on a map in canonical form. -/
theorem Sparse.get_set {hi lo : Nat} {m : Sparse w} (h : Sparse.wfFrom hi lo m = true) (k j : Nat) (v : BitVec w) :
    Sparse.get (Sparse.set m k v) j = if k = j then v else Sparse.get m j := by
  induction m generalizing lo with
  | nil => exact Sparse.get_put (hi := hi) (lo := k) rfl (by omega) j
  | cons p m ih =>
    obtain ⟨i, u⟩ := p
    have h' := h
    simp only [Sparse.wfFrom, Bool.and_eq_true, decide_eq_true_eq, bne_iff_ne] at h
    obtain ⟨⟨⟨h1, h2⟩, h3⟩, h4⟩ := h
    simp only [Sparse.set]
    split
    · apply Sparse.get_put (hi := hi) (lo := k) _ (by omega) j
      simp only [Sparse.wfFrom, Bool.and_eq_true, decide_eq_true_eq, bne_iff_ne]
      exact ⟨⟨⟨by omega, h2⟩, h3⟩, h4⟩
    · split
      · rename_i hki
        subst hki
        rw [Sparse.get_put h4 (by omega), Sparse.get_cons]
        split <;> rfl
      · rw [Sparse.get_cons, Sparse.get_cons, ih h4]
        split <;> split <;> first | rfl | omega

/-- A write leaves every other key alone, in canonical form or not. -/
theorem Sparse.get_set_of_ne (m : Sparse w) {k j : Nat} (v : BitVec w) (hkj : k ≠ j) :
    Sparse.get (Sparse.set m k v) j = Sparse.get m j := by
  have hput : ∀ m : Sparse w, Sparse.get (Sparse.put k v m) j = Sparse.get m j := by
    intro m
    unfold Sparse.put
    split
    · rfl
    · rw [Sparse.get_cons, if_neg hkj]
  induction m with
  | nil => exact hput []
  | cons p m ih =>
    obtain ⟨i, u⟩ := p
    simp only [Sparse.set]
    split
    · exact hput _
    · split
      · rename_i hki
        rw [hput, Sparse.get_cons, if_neg (by omega)]
      · rw [Sparse.get_cons, Sparse.get_cons, ih]

/-- Two maps in canonical form that read alike are equal. -/
theorem Sparse.ext_get {hi lo : Nat} {m n : Sparse w} (hm : Sparse.wfFrom hi lo m = true)
    (hn : Sparse.wfFrom hi lo n = true) (h : ∀ k, Sparse.get m k = Sparse.get n k) : m = n := by
  induction m generalizing lo n with
  | nil =>
    cases n with
    | nil => rfl
    | cons p n =>
      obtain ⟨j, v⟩ := p
      have hj := h j
      simp only [Sparse.wfFrom, Bool.and_eq_true, bne_iff_ne] at hn
      rw [Sparse.get_nil, Sparse.get_cons, if_pos rfl] at hj
      exact absurd hj.symm hn.1.2
  | cons p m ih =>
    obtain ⟨i, u⟩ := p
    have hm' := hm
    simp only [Sparse.wfFrom, Bool.and_eq_true, decide_eq_true_eq, bne_iff_ne] at hm
    cases n with
    | nil =>
      have hi' := h i
      rw [Sparse.get_nil, Sparse.get_cons, if_pos rfl] at hi'
      exact absurd hi' hm.1.2
    | cons q n =>
      obtain ⟨j, v⟩ := q
      have hn' := hn
      simp only [Sparse.wfFrom, Bool.and_eq_true, decide_eq_true_eq, bne_iff_ne] at hn
      have key : i = j := by
        by_contra hne
        rcases Nat.lt_or_gt_of_ne hne with hl | hl
        · have hi' := h i
          rw [Sparse.get_cons, if_pos rfl, Sparse.get_cons, if_neg (by omega),
            Sparse.get_below hn.2 (by omega)] at hi'
          exact hm.1.2 hi'
        · have hj' := h j
          rw [Sparse.get_cons, if_neg (by omega), Sparse.get_cons, if_pos rfl,
            Sparse.get_below hm.2 (by omega)] at hj'
          exact hn.1.2 hj'.symm
      subst key
      have huv : u = v := by
        have hi' := h i
        rwa [Sparse.get_cons, if_pos rfl, Sparse.get_cons, if_pos rfl] at hi'
      subst huv
      congr 1
      refine ih hm.2 hn.2 fun k => ?_
      have hk := h k
      rw [Sparse.get_cons, Sparse.get_cons] at hk
      by_cases hik : i = k
      · subst hik
        rw [Sparse.get_below hm.2 (by omega), Sparse.get_below hn.2 (by omega)]
      · rwa [if_neg hik, if_neg hik] at hk

end Sys2Proof.Machine
end

