-- ==== Sys2Proof/Laws/State.lean ====
section
/-! SUPPORT. What each update of the state leaves alone, one lemma per field. -/

namespace Sys2Proof.Machine

@[simp] theorem State.setD_aregs (s : State) (n : RegNo) (v : Long) :
    (s.setD n v).aregs = s.aregs := rfl
@[simp] theorem State.setD_ssp (s : State) (n : RegNo) (v : Long) :
    (s.setD n v).ssp = s.ssp := rfl
@[simp] theorem State.setD_usp (s : State) (n : RegNo) (v : Long) :
    (s.setD n v).usp = s.usp := rfl
@[simp] theorem State.setD_pc (s : State) (n : RegNo) (v : Long) :
    (s.setD n v).pc = s.pc := rfl
@[simp] theorem State.setD_cursor (s : State) (n : RegNo) (v : Long) :
    (s.setD n v).cursor = s.cursor := rfl
@[simp] theorem State.setD_sr (s : State) (n : RegNo) (v : Long) :
    (s.setD n v).sr = s.sr := rfl
@[simp] theorem State.setD_vbr (s : State) (n : RegNo) (v : Long) :
    (s.setD n v).vbr = s.vbr := rfl
@[simp] theorem State.setD_ctrl (s : State) (n : RegNo) (v : Long) :
    (s.setD n v).ctrl = s.ctrl := rfl
@[simp] theorem State.setD_mem (s : State) (n : RegNo) (v : Long) :
    (s.setD n v).mem = s.mem := rfl
@[simp] theorem State.setD_runState (s : State) (n : RegNo) (v : Long) :
    (s.setD n v).runState = s.runState := rfl
@[simp] theorem State.setD_fault (s : State) (n : RegNo) (v : Long) :
    (s.setD n v).fault = s.fault := rfl
@[simp] theorem State.setD_refused (s : State) (n : RegNo) (v : Long) :
    (s.setD n v).refused = s.refused := rfl
@[simp] theorem State.setD_afterException (s : State) (n : RegNo) (v : Long) :
    (s.setD n v).afterException = s.afterException := rfl
@[simp] theorem State.setD_ioLog (s : State) (n : RegNo) (v : Long) :
    (s.setD n v).ioLog = s.ioLog := rfl
@[simp] theorem State.setD_ipl (s : State) (n : RegNo) (v : Long) :
    (s.setD n v).ipl = s.ipl := rfl
@[simp] theorem State.setD_iplPrev (s : State) (n : RegNo) (v : Long) :
    (s.setD n v).iplPrev = s.iplPrev := rfl
@[simp] theorem State.setD_drawCount (s : State) (n : RegNo) (v : Long) :
    (s.setD n v).drawCount = s.drawCount := rfl
@[simp] theorem State.setD_cfg (s : State) (n : RegNo) (v : Long) :
    (s.setD n v).cfg = s.cfg := rfl

@[simp] theorem State.writeD_aregs (s : State) (n : RegNo) (sz : Size) (v : Long) :
    (s.writeD n sz v).aregs = s.aregs := rfl
@[simp] theorem State.writeD_ssp (s : State) (n : RegNo) (sz : Size) (v : Long) :
    (s.writeD n sz v).ssp = s.ssp := rfl
@[simp] theorem State.writeD_usp (s : State) (n : RegNo) (sz : Size) (v : Long) :
    (s.writeD n sz v).usp = s.usp := rfl
@[simp] theorem State.writeD_pc (s : State) (n : RegNo) (sz : Size) (v : Long) :
    (s.writeD n sz v).pc = s.pc := rfl
@[simp] theorem State.writeD_cursor (s : State) (n : RegNo) (sz : Size) (v : Long) :
    (s.writeD n sz v).cursor = s.cursor := rfl
@[simp] theorem State.writeD_sr (s : State) (n : RegNo) (sz : Size) (v : Long) :
    (s.writeD n sz v).sr = s.sr := rfl
@[simp] theorem State.writeD_vbr (s : State) (n : RegNo) (sz : Size) (v : Long) :
    (s.writeD n sz v).vbr = s.vbr := rfl
@[simp] theorem State.writeD_ctrl (s : State) (n : RegNo) (sz : Size) (v : Long) :
    (s.writeD n sz v).ctrl = s.ctrl := rfl
@[simp] theorem State.writeD_mem (s : State) (n : RegNo) (sz : Size) (v : Long) :
    (s.writeD n sz v).mem = s.mem := rfl
@[simp] theorem State.writeD_runState (s : State) (n : RegNo) (sz : Size) (v : Long) :
    (s.writeD n sz v).runState = s.runState := rfl
@[simp] theorem State.writeD_fault (s : State) (n : RegNo) (sz : Size) (v : Long) :
    (s.writeD n sz v).fault = s.fault := rfl
@[simp] theorem State.writeD_refused (s : State) (n : RegNo) (sz : Size) (v : Long) :
    (s.writeD n sz v).refused = s.refused := rfl
@[simp] theorem State.writeD_afterException (s : State) (n : RegNo) (sz : Size) (v : Long) :
    (s.writeD n sz v).afterException = s.afterException := rfl
@[simp] theorem State.writeD_ioLog (s : State) (n : RegNo) (sz : Size) (v : Long) :
    (s.writeD n sz v).ioLog = s.ioLog := rfl
@[simp] theorem State.writeD_ipl (s : State) (n : RegNo) (sz : Size) (v : Long) :
    (s.writeD n sz v).ipl = s.ipl := rfl
@[simp] theorem State.writeD_iplPrev (s : State) (n : RegNo) (sz : Size) (v : Long) :
    (s.writeD n sz v).iplPrev = s.iplPrev := rfl
@[simp] theorem State.writeD_drawCount (s : State) (n : RegNo) (sz : Size) (v : Long) :
    (s.writeD n sz v).drawCount = s.drawCount := rfl
@[simp] theorem State.writeD_cfg (s : State) (n : RegNo) (sz : Size) (v : Long) :
    (s.writeD n sz v).cfg = s.cfg := rfl

@[simp] theorem State.setA_dregs (s : State) (n : RegNo) (v : Long) :
    (s.setA n v).dregs = s.dregs := by unfold State.setA; split <;> [rfl; (split <;> rfl)]
@[simp] theorem State.setA_pc (s : State) (n : RegNo) (v : Long) :
    (s.setA n v).pc = s.pc := by unfold State.setA; split <;> [rfl; (split <;> rfl)]
@[simp] theorem State.setA_cursor (s : State) (n : RegNo) (v : Long) :
    (s.setA n v).cursor = s.cursor := by unfold State.setA; split <;> [rfl; (split <;> rfl)]
@[simp] theorem State.setA_sr (s : State) (n : RegNo) (v : Long) :
    (s.setA n v).sr = s.sr := by unfold State.setA; split <;> [rfl; (split <;> rfl)]
@[simp] theorem State.setA_vbr (s : State) (n : RegNo) (v : Long) :
    (s.setA n v).vbr = s.vbr := by unfold State.setA; split <;> [rfl; (split <;> rfl)]
@[simp] theorem State.setA_ctrl (s : State) (n : RegNo) (v : Long) :
    (s.setA n v).ctrl = s.ctrl := by unfold State.setA; split <;> [rfl; (split <;> rfl)]
@[simp] theorem State.setA_mem (s : State) (n : RegNo) (v : Long) :
    (s.setA n v).mem = s.mem := by unfold State.setA; split <;> [rfl; (split <;> rfl)]
@[simp] theorem State.setA_runState (s : State) (n : RegNo) (v : Long) :
    (s.setA n v).runState = s.runState := by unfold State.setA; split <;> [rfl; (split <;> rfl)]
@[simp] theorem State.setA_fault (s : State) (n : RegNo) (v : Long) :
    (s.setA n v).fault = s.fault := by unfold State.setA; split <;> [rfl; (split <;> rfl)]
@[simp] theorem State.setA_refused (s : State) (n : RegNo) (v : Long) :
    (s.setA n v).refused = s.refused := by unfold State.setA; split <;> [rfl; (split <;> rfl)]
@[simp] theorem State.setA_afterException (s : State) (n : RegNo) (v : Long) :
    (s.setA n v).afterException = s.afterException := by unfold State.setA; split <;> [rfl; (split <;> rfl)]
@[simp] theorem State.setA_ioLog (s : State) (n : RegNo) (v : Long) :
    (s.setA n v).ioLog = s.ioLog := by unfold State.setA; split <;> [rfl; (split <;> rfl)]
@[simp] theorem State.setA_ipl (s : State) (n : RegNo) (v : Long) :
    (s.setA n v).ipl = s.ipl := by unfold State.setA; split <;> [rfl; (split <;> rfl)]
@[simp] theorem State.setA_iplPrev (s : State) (n : RegNo) (v : Long) :
    (s.setA n v).iplPrev = s.iplPrev := by unfold State.setA; split <;> [rfl; (split <;> rfl)]
@[simp] theorem State.setA_drawCount (s : State) (n : RegNo) (v : Long) :
    (s.setA n v).drawCount = s.drawCount := by unfold State.setA; split <;> [rfl; (split <;> rfl)]
@[simp] theorem State.setA_cfg (s : State) (n : RegNo) (v : Long) :
    (s.setA n v).cfg = s.cfg := by unfold State.setA; split <;> [rfl; (split <;> rfl)]

@[simp] theorem State.setUserSp_dregs (s : State) (v : Long) :
    (s.setUserSp v).dregs = s.dregs := by unfold State.setUserSp; split <;> rfl
@[simp] theorem State.setUserSp_aregs (s : State) (v : Long) :
    (s.setUserSp v).aregs = s.aregs := by unfold State.setUserSp; split <;> rfl
@[simp] theorem State.setUserSp_pc (s : State) (v : Long) :
    (s.setUserSp v).pc = s.pc := by unfold State.setUserSp; split <;> rfl
@[simp] theorem State.setUserSp_cursor (s : State) (v : Long) :
    (s.setUserSp v).cursor = s.cursor := by unfold State.setUserSp; split <;> rfl
@[simp] theorem State.setUserSp_sr (s : State) (v : Long) :
    (s.setUserSp v).sr = s.sr := by unfold State.setUserSp; split <;> rfl
@[simp] theorem State.setUserSp_vbr (s : State) (v : Long) :
    (s.setUserSp v).vbr = s.vbr := by unfold State.setUserSp; split <;> rfl
@[simp] theorem State.setUserSp_ctrl (s : State) (v : Long) :
    (s.setUserSp v).ctrl = s.ctrl := by unfold State.setUserSp; split <;> rfl
@[simp] theorem State.setUserSp_mem (s : State) (v : Long) :
    (s.setUserSp v).mem = s.mem := by unfold State.setUserSp; split <;> rfl
@[simp] theorem State.setUserSp_runState (s : State) (v : Long) :
    (s.setUserSp v).runState = s.runState := by unfold State.setUserSp; split <;> rfl
@[simp] theorem State.setUserSp_fault (s : State) (v : Long) :
    (s.setUserSp v).fault = s.fault := by unfold State.setUserSp; split <;> rfl
@[simp] theorem State.setUserSp_refused (s : State) (v : Long) :
    (s.setUserSp v).refused = s.refused := by unfold State.setUserSp; split <;> rfl
@[simp] theorem State.setUserSp_afterException (s : State) (v : Long) :
    (s.setUserSp v).afterException = s.afterException := by unfold State.setUserSp; split <;> rfl
@[simp] theorem State.setUserSp_ioLog (s : State) (v : Long) :
    (s.setUserSp v).ioLog = s.ioLog := by unfold State.setUserSp; split <;> rfl
@[simp] theorem State.setUserSp_ipl (s : State) (v : Long) :
    (s.setUserSp v).ipl = s.ipl := by unfold State.setUserSp; split <;> rfl
@[simp] theorem State.setUserSp_iplPrev (s : State) (v : Long) :
    (s.setUserSp v).iplPrev = s.iplPrev := by unfold State.setUserSp; split <;> rfl
@[simp] theorem State.setUserSp_drawCount (s : State) (v : Long) :
    (s.setUserSp v).drawCount = s.drawCount := by unfold State.setUserSp; split <;> rfl
@[simp] theorem State.setUserSp_cfg (s : State) (v : Long) :
    (s.setUserSp v).cfg = s.cfg := by unfold State.setUserSp; split <;> rfl

@[simp] theorem State.setCcr_dregs (s : State) (f : Ccr) :
    (s.setCcr f).dregs = s.dregs := rfl
@[simp] theorem State.setCcr_aregs (s : State) (f : Ccr) :
    (s.setCcr f).aregs = s.aregs := rfl
@[simp] theorem State.setCcr_ssp (s : State) (f : Ccr) :
    (s.setCcr f).ssp = s.ssp := rfl
@[simp] theorem State.setCcr_usp (s : State) (f : Ccr) :
    (s.setCcr f).usp = s.usp := rfl
@[simp] theorem State.setCcr_pc (s : State) (f : Ccr) :
    (s.setCcr f).pc = s.pc := rfl
@[simp] theorem State.setCcr_cursor (s : State) (f : Ccr) :
    (s.setCcr f).cursor = s.cursor := rfl
@[simp] theorem State.setCcr_vbr (s : State) (f : Ccr) :
    (s.setCcr f).vbr = s.vbr := rfl
@[simp] theorem State.setCcr_ctrl (s : State) (f : Ccr) :
    (s.setCcr f).ctrl = s.ctrl := rfl
@[simp] theorem State.setCcr_mem (s : State) (f : Ccr) :
    (s.setCcr f).mem = s.mem := rfl
@[simp] theorem State.setCcr_runState (s : State) (f : Ccr) :
    (s.setCcr f).runState = s.runState := rfl
@[simp] theorem State.setCcr_fault (s : State) (f : Ccr) :
    (s.setCcr f).fault = s.fault := rfl
@[simp] theorem State.setCcr_refused (s : State) (f : Ccr) :
    (s.setCcr f).refused = s.refused := rfl
@[simp] theorem State.setCcr_afterException (s : State) (f : Ccr) :
    (s.setCcr f).afterException = s.afterException := rfl
@[simp] theorem State.setCcr_ioLog (s : State) (f : Ccr) :
    (s.setCcr f).ioLog = s.ioLog := rfl
@[simp] theorem State.setCcr_ipl (s : State) (f : Ccr) :
    (s.setCcr f).ipl = s.ipl := rfl
@[simp] theorem State.setCcr_iplPrev (s : State) (f : Ccr) :
    (s.setCcr f).iplPrev = s.iplPrev := rfl
@[simp] theorem State.setCcr_drawCount (s : State) (f : Ccr) :
    (s.setCcr f).drawCount = s.drawCount := rfl
@[simp] theorem State.setCcr_cfg (s : State) (f : Ccr) :
    (s.setCcr f).cfg = s.cfg := rfl

@[simp] theorem State.setSr_dregs (s : State) (v : Word) :
    (s.setSr v).dregs = s.dregs := rfl
@[simp] theorem State.setSr_aregs (s : State) (v : Word) :
    (s.setSr v).aregs = s.aregs := rfl
@[simp] theorem State.setSr_ssp (s : State) (v : Word) :
    (s.setSr v).ssp = s.ssp := rfl
@[simp] theorem State.setSr_usp (s : State) (v : Word) :
    (s.setSr v).usp = s.usp := rfl
@[simp] theorem State.setSr_pc (s : State) (v : Word) :
    (s.setSr v).pc = s.pc := rfl
@[simp] theorem State.setSr_cursor (s : State) (v : Word) :
    (s.setSr v).cursor = s.cursor := rfl
@[simp] theorem State.setSr_vbr (s : State) (v : Word) :
    (s.setSr v).vbr = s.vbr := rfl
@[simp] theorem State.setSr_ctrl (s : State) (v : Word) :
    (s.setSr v).ctrl = s.ctrl := rfl
@[simp] theorem State.setSr_mem (s : State) (v : Word) :
    (s.setSr v).mem = s.mem := rfl
@[simp] theorem State.setSr_runState (s : State) (v : Word) :
    (s.setSr v).runState = s.runState := rfl
@[simp] theorem State.setSr_fault (s : State) (v : Word) :
    (s.setSr v).fault = s.fault := rfl
@[simp] theorem State.setSr_refused (s : State) (v : Word) :
    (s.setSr v).refused = s.refused := rfl
@[simp] theorem State.setSr_afterException (s : State) (v : Word) :
    (s.setSr v).afterException = s.afterException := rfl
@[simp] theorem State.setSr_ioLog (s : State) (v : Word) :
    (s.setSr v).ioLog = s.ioLog := rfl
@[simp] theorem State.setSr_ipl (s : State) (v : Word) :
    (s.setSr v).ipl = s.ipl := rfl
@[simp] theorem State.setSr_iplPrev (s : State) (v : Word) :
    (s.setSr v).iplPrev = s.iplPrev := rfl
@[simp] theorem State.setSr_drawCount (s : State) (v : Word) :
    (s.setSr v).drawCount = s.drawCount := rfl
@[simp] theorem State.setSr_cfg (s : State) (v : Word) :
    (s.setSr v).cfg = s.cfg := rfl

@[simp] theorem State.draw_dregs (s : State) :
    (s.draw.2).dregs = s.dregs := rfl
@[simp] theorem State.draw_aregs (s : State) :
    (s.draw.2).aregs = s.aregs := rfl
@[simp] theorem State.draw_ssp (s : State) :
    (s.draw.2).ssp = s.ssp := rfl
@[simp] theorem State.draw_usp (s : State) :
    (s.draw.2).usp = s.usp := rfl
@[simp] theorem State.draw_pc (s : State) :
    (s.draw.2).pc = s.pc := rfl
@[simp] theorem State.draw_cursor (s : State) :
    (s.draw.2).cursor = s.cursor := rfl
@[simp] theorem State.draw_sr (s : State) :
    (s.draw.2).sr = s.sr := rfl
@[simp] theorem State.draw_vbr (s : State) :
    (s.draw.2).vbr = s.vbr := rfl
@[simp] theorem State.draw_ctrl (s : State) :
    (s.draw.2).ctrl = s.ctrl := rfl
@[simp] theorem State.draw_mem (s : State) :
    (s.draw.2).mem = s.mem := rfl
@[simp] theorem State.draw_runState (s : State) :
    (s.draw.2).runState = s.runState := rfl
@[simp] theorem State.draw_fault (s : State) :
    (s.draw.2).fault = s.fault := rfl
@[simp] theorem State.draw_refused (s : State) :
    (s.draw.2).refused = s.refused := rfl
@[simp] theorem State.draw_afterException (s : State) :
    (s.draw.2).afterException = s.afterException := rfl
@[simp] theorem State.draw_ioLog (s : State) :
    (s.draw.2).ioLog = s.ioLog := rfl
@[simp] theorem State.draw_ipl (s : State) :
    (s.draw.2).ipl = s.ipl := rfl
@[simp] theorem State.draw_iplPrev (s : State) :
    (s.draw.2).iplPrev = s.iplPrev := rfl
@[simp] theorem State.draw_cfg (s : State) :
    (s.draw.2).cfg = s.cfg := rfl

@[simp] theorem State.drawBit_dregs (s : State) :
    (s.drawBit.2).dregs = s.dregs := rfl
@[simp] theorem State.drawBit_aregs (s : State) :
    (s.drawBit.2).aregs = s.aregs := rfl
@[simp] theorem State.drawBit_ssp (s : State) :
    (s.drawBit.2).ssp = s.ssp := rfl
@[simp] theorem State.drawBit_usp (s : State) :
    (s.drawBit.2).usp = s.usp := rfl
@[simp] theorem State.drawBit_pc (s : State) :
    (s.drawBit.2).pc = s.pc := rfl
@[simp] theorem State.drawBit_cursor (s : State) :
    (s.drawBit.2).cursor = s.cursor := rfl
@[simp] theorem State.drawBit_sr (s : State) :
    (s.drawBit.2).sr = s.sr := rfl
@[simp] theorem State.drawBit_vbr (s : State) :
    (s.drawBit.2).vbr = s.vbr := rfl
@[simp] theorem State.drawBit_ctrl (s : State) :
    (s.drawBit.2).ctrl = s.ctrl := rfl
@[simp] theorem State.drawBit_mem (s : State) :
    (s.drawBit.2).mem = s.mem := rfl
@[simp] theorem State.drawBit_runState (s : State) :
    (s.drawBit.2).runState = s.runState := rfl
@[simp] theorem State.drawBit_fault (s : State) :
    (s.drawBit.2).fault = s.fault := rfl
@[simp] theorem State.drawBit_refused (s : State) :
    (s.drawBit.2).refused = s.refused := rfl
@[simp] theorem State.drawBit_afterException (s : State) :
    (s.drawBit.2).afterException = s.afterException := rfl
@[simp] theorem State.drawBit_ioLog (s : State) :
    (s.drawBit.2).ioLog = s.ioLog := rfl
@[simp] theorem State.drawBit_ipl (s : State) :
    (s.drawBit.2).ipl = s.ipl := rfl
@[simp] theorem State.drawBit_iplPrev (s : State) :
    (s.drawBit.2).iplPrev = s.iplPrev := rfl
@[simp] theorem State.drawBit_cfg (s : State) :
    (s.drawBit.2).cfg = s.cfg := rfl

@[simp] theorem State.logIo_dregs (s : State) (k : AccessKind) (a : Long) (sz : Size) (v : Long) :
    (s.logIo k a sz v).dregs = s.dregs := rfl
@[simp] theorem State.logIo_aregs (s : State) (k : AccessKind) (a : Long) (sz : Size) (v : Long) :
    (s.logIo k a sz v).aregs = s.aregs := rfl
@[simp] theorem State.logIo_ssp (s : State) (k : AccessKind) (a : Long) (sz : Size) (v : Long) :
    (s.logIo k a sz v).ssp = s.ssp := rfl
@[simp] theorem State.logIo_usp (s : State) (k : AccessKind) (a : Long) (sz : Size) (v : Long) :
    (s.logIo k a sz v).usp = s.usp := rfl
@[simp] theorem State.logIo_pc (s : State) (k : AccessKind) (a : Long) (sz : Size) (v : Long) :
    (s.logIo k a sz v).pc = s.pc := rfl
@[simp] theorem State.logIo_cursor (s : State) (k : AccessKind) (a : Long) (sz : Size) (v : Long) :
    (s.logIo k a sz v).cursor = s.cursor := rfl
@[simp] theorem State.logIo_sr (s : State) (k : AccessKind) (a : Long) (sz : Size) (v : Long) :
    (s.logIo k a sz v).sr = s.sr := rfl
@[simp] theorem State.logIo_vbr (s : State) (k : AccessKind) (a : Long) (sz : Size) (v : Long) :
    (s.logIo k a sz v).vbr = s.vbr := rfl
@[simp] theorem State.logIo_ctrl (s : State) (k : AccessKind) (a : Long) (sz : Size) (v : Long) :
    (s.logIo k a sz v).ctrl = s.ctrl := rfl
@[simp] theorem State.logIo_mem (s : State) (k : AccessKind) (a : Long) (sz : Size) (v : Long) :
    (s.logIo k a sz v).mem = s.mem := rfl
@[simp] theorem State.logIo_runState (s : State) (k : AccessKind) (a : Long) (sz : Size) (v : Long) :
    (s.logIo k a sz v).runState = s.runState := rfl
@[simp] theorem State.logIo_fault (s : State) (k : AccessKind) (a : Long) (sz : Size) (v : Long) :
    (s.logIo k a sz v).fault = s.fault := rfl
@[simp] theorem State.logIo_refused (s : State) (k : AccessKind) (a : Long) (sz : Size) (v : Long) :
    (s.logIo k a sz v).refused = s.refused := rfl
@[simp] theorem State.logIo_afterException (s : State) (k : AccessKind) (a : Long) (sz : Size) (v : Long) :
    (s.logIo k a sz v).afterException = s.afterException := rfl
@[simp] theorem State.logIo_ipl (s : State) (k : AccessKind) (a : Long) (sz : Size) (v : Long) :
    (s.logIo k a sz v).ipl = s.ipl := rfl
@[simp] theorem State.logIo_iplPrev (s : State) (k : AccessKind) (a : Long) (sz : Size) (v : Long) :
    (s.logIo k a sz v).iplPrev = s.iplPrev := rfl
@[simp] theorem State.logIo_drawCount (s : State) (k : AccessKind) (a : Long) (sz : Size) (v : Long) :
    (s.logIo k a sz v).drawCount = s.drawCount := rfl
@[simp] theorem State.logIo_cfg (s : State) (k : AccessKind) (a : Long) (sz : Size) (v : Long) :
    (s.logIo k a sz v).cfg = s.cfg := rfl

@[simp] theorem State.poke_dregs (s : State) (a : Long) (sz : Size) (v : Long) :
    (s.poke a sz v).dregs = s.dregs := rfl
@[simp] theorem State.poke_aregs (s : State) (a : Long) (sz : Size) (v : Long) :
    (s.poke a sz v).aregs = s.aregs := rfl
@[simp] theorem State.poke_ssp (s : State) (a : Long) (sz : Size) (v : Long) :
    (s.poke a sz v).ssp = s.ssp := rfl
@[simp] theorem State.poke_usp (s : State) (a : Long) (sz : Size) (v : Long) :
    (s.poke a sz v).usp = s.usp := rfl
@[simp] theorem State.poke_pc (s : State) (a : Long) (sz : Size) (v : Long) :
    (s.poke a sz v).pc = s.pc := rfl
@[simp] theorem State.poke_cursor (s : State) (a : Long) (sz : Size) (v : Long) :
    (s.poke a sz v).cursor = s.cursor := rfl
@[simp] theorem State.poke_sr (s : State) (a : Long) (sz : Size) (v : Long) :
    (s.poke a sz v).sr = s.sr := rfl
@[simp] theorem State.poke_vbr (s : State) (a : Long) (sz : Size) (v : Long) :
    (s.poke a sz v).vbr = s.vbr := rfl
@[simp] theorem State.poke_ctrl (s : State) (a : Long) (sz : Size) (v : Long) :
    (s.poke a sz v).ctrl = s.ctrl := rfl
@[simp] theorem State.poke_runState (s : State) (a : Long) (sz : Size) (v : Long) :
    (s.poke a sz v).runState = s.runState := rfl
@[simp] theorem State.poke_fault (s : State) (a : Long) (sz : Size) (v : Long) :
    (s.poke a sz v).fault = s.fault := rfl
@[simp] theorem State.poke_refused (s : State) (a : Long) (sz : Size) (v : Long) :
    (s.poke a sz v).refused = s.refused := rfl
@[simp] theorem State.poke_afterException (s : State) (a : Long) (sz : Size) (v : Long) :
    (s.poke a sz v).afterException = s.afterException := rfl
@[simp] theorem State.poke_ioLog (s : State) (a : Long) (sz : Size) (v : Long) :
    (s.poke a sz v).ioLog = s.ioLog := rfl
@[simp] theorem State.poke_ipl (s : State) (a : Long) (sz : Size) (v : Long) :
    (s.poke a sz v).ipl = s.ipl := rfl
@[simp] theorem State.poke_iplPrev (s : State) (a : Long) (sz : Size) (v : Long) :
    (s.poke a sz v).iplPrev = s.iplPrev := rfl
@[simp] theorem State.poke_drawCount (s : State) (a : Long) (sz : Size) (v : Long) :
    (s.poke a sz v).drawCount = s.drawCount := rfl
@[simp] theorem State.poke_cfg (s : State) (a : Long) (sz : Size) (v : Long) :
    (s.poke a sz v).cfg = s.cfg := rfl

@[simp] theorem State.deposit_dregs (s : State) (a : Long) (sz : Size) (v : Long) :
    (s.deposit a sz v).dregs = s.dregs := by unfold State.deposit; split <;> rfl
@[simp] theorem State.deposit_aregs (s : State) (a : Long) (sz : Size) (v : Long) :
    (s.deposit a sz v).aregs = s.aregs := by unfold State.deposit; split <;> rfl
@[simp] theorem State.deposit_ssp (s : State) (a : Long) (sz : Size) (v : Long) :
    (s.deposit a sz v).ssp = s.ssp := by unfold State.deposit; split <;> rfl
@[simp] theorem State.deposit_usp (s : State) (a : Long) (sz : Size) (v : Long) :
    (s.deposit a sz v).usp = s.usp := by unfold State.deposit; split <;> rfl
@[simp] theorem State.deposit_pc (s : State) (a : Long) (sz : Size) (v : Long) :
    (s.deposit a sz v).pc = s.pc := by unfold State.deposit; split <;> rfl
@[simp] theorem State.deposit_cursor (s : State) (a : Long) (sz : Size) (v : Long) :
    (s.deposit a sz v).cursor = s.cursor := by unfold State.deposit; split <;> rfl
@[simp] theorem State.deposit_sr (s : State) (a : Long) (sz : Size) (v : Long) :
    (s.deposit a sz v).sr = s.sr := by unfold State.deposit; split <;> rfl
@[simp] theorem State.deposit_vbr (s : State) (a : Long) (sz : Size) (v : Long) :
    (s.deposit a sz v).vbr = s.vbr := by unfold State.deposit; split <;> rfl
@[simp] theorem State.deposit_ctrl (s : State) (a : Long) (sz : Size) (v : Long) :
    (s.deposit a sz v).ctrl = s.ctrl := by unfold State.deposit; split <;> rfl
@[simp] theorem State.deposit_runState (s : State) (a : Long) (sz : Size) (v : Long) :
    (s.deposit a sz v).runState = s.runState := by unfold State.deposit; split <;> rfl
@[simp] theorem State.deposit_fault (s : State) (a : Long) (sz : Size) (v : Long) :
    (s.deposit a sz v).fault = s.fault := by unfold State.deposit; split <;> rfl
@[simp] theorem State.deposit_refused (s : State) (a : Long) (sz : Size) (v : Long) :
    (s.deposit a sz v).refused = s.refused := by unfold State.deposit; split <;> rfl
@[simp] theorem State.deposit_afterException (s : State) (a : Long) (sz : Size) (v : Long) :
    (s.deposit a sz v).afterException = s.afterException := by unfold State.deposit; split <;> rfl
@[simp] theorem State.deposit_ipl (s : State) (a : Long) (sz : Size) (v : Long) :
    (s.deposit a sz v).ipl = s.ipl := by unfold State.deposit; split <;> rfl
@[simp] theorem State.deposit_iplPrev (s : State) (a : Long) (sz : Size) (v : Long) :
    (s.deposit a sz v).iplPrev = s.iplPrev := by unfold State.deposit; split <;> rfl
@[simp] theorem State.deposit_drawCount (s : State) (a : Long) (sz : Size) (v : Long) :
    (s.deposit a sz v).drawCount = s.drawCount := by unfold State.deposit; split <;> rfl
@[simp] theorem State.deposit_cfg (s : State) (a : Long) (sz : Size) (v : Long) :
    (s.deposit a sz v).cfg = s.cfg := by unfold State.deposit; split <;> rfl

@[simp] theorem State.access_dregs (s : State) (k : AccessKind) (a : Long) (sz : Size) :
    ((s.access k a sz).2).dregs = s.dregs := by unfold State.access; split <;> rfl
@[simp] theorem State.access_aregs (s : State) (k : AccessKind) (a : Long) (sz : Size) :
    ((s.access k a sz).2).aregs = s.aregs := by unfold State.access; split <;> rfl
@[simp] theorem State.access_ssp (s : State) (k : AccessKind) (a : Long) (sz : Size) :
    ((s.access k a sz).2).ssp = s.ssp := by unfold State.access; split <;> rfl
@[simp] theorem State.access_usp (s : State) (k : AccessKind) (a : Long) (sz : Size) :
    ((s.access k a sz).2).usp = s.usp := by unfold State.access; split <;> rfl
@[simp] theorem State.access_pc (s : State) (k : AccessKind) (a : Long) (sz : Size) :
    ((s.access k a sz).2).pc = s.pc := by unfold State.access; split <;> rfl
@[simp] theorem State.access_cursor (s : State) (k : AccessKind) (a : Long) (sz : Size) :
    ((s.access k a sz).2).cursor = s.cursor := by unfold State.access; split <;> rfl
@[simp] theorem State.access_sr (s : State) (k : AccessKind) (a : Long) (sz : Size) :
    ((s.access k a sz).2).sr = s.sr := by unfold State.access; split <;> rfl
@[simp] theorem State.access_vbr (s : State) (k : AccessKind) (a : Long) (sz : Size) :
    ((s.access k a sz).2).vbr = s.vbr := by unfold State.access; split <;> rfl
@[simp] theorem State.access_ctrl (s : State) (k : AccessKind) (a : Long) (sz : Size) :
    ((s.access k a sz).2).ctrl = s.ctrl := by unfold State.access; split <;> rfl
@[simp] theorem State.access_mem (s : State) (k : AccessKind) (a : Long) (sz : Size) :
    ((s.access k a sz).2).mem = s.mem := by unfold State.access; split <;> rfl
@[simp] theorem State.access_runState (s : State) (k : AccessKind) (a : Long) (sz : Size) :
    ((s.access k a sz).2).runState = s.runState := by unfold State.access; split <;> rfl
@[simp] theorem State.access_fault (s : State) (k : AccessKind) (a : Long) (sz : Size) :
    ((s.access k a sz).2).fault = s.fault := by unfold State.access; split <;> rfl
@[simp] theorem State.access_refused (s : State) (k : AccessKind) (a : Long) (sz : Size) :
    ((s.access k a sz).2).refused = s.refused := by unfold State.access; split <;> rfl
@[simp] theorem State.access_afterException (s : State) (k : AccessKind) (a : Long) (sz : Size) :
    ((s.access k a sz).2).afterException = s.afterException := by unfold State.access; split <;> rfl
@[simp] theorem State.access_ipl (s : State) (k : AccessKind) (a : Long) (sz : Size) :
    ((s.access k a sz).2).ipl = s.ipl := by unfold State.access; split <;> rfl
@[simp] theorem State.access_iplPrev (s : State) (k : AccessKind) (a : Long) (sz : Size) :
    ((s.access k a sz).2).iplPrev = s.iplPrev := by unfold State.access; split <;> rfl
@[simp] theorem State.access_cfg (s : State) (k : AccessKind) (a : Long) (sz : Size) :
    ((s.access k a sz).2).cfg = s.cfg := by unfold State.access; split <;> rfl

@[simp] theorem State.autoUpdate_dregs (s : State) (sz : Size) (e : Ea) :
    (s.autoUpdate sz e).dregs = s.dregs := by cases e <;> simp [State.autoUpdate]
@[simp] theorem State.autoUpdate_pc (s : State) (sz : Size) (e : Ea) :
    (s.autoUpdate sz e).pc = s.pc := by cases e <;> simp [State.autoUpdate]
@[simp] theorem State.autoUpdate_cursor (s : State) (sz : Size) (e : Ea) :
    (s.autoUpdate sz e).cursor = s.cursor := by cases e <;> simp [State.autoUpdate]
@[simp] theorem State.autoUpdate_sr (s : State) (sz : Size) (e : Ea) :
    (s.autoUpdate sz e).sr = s.sr := by cases e <;> simp [State.autoUpdate]
@[simp] theorem State.autoUpdate_vbr (s : State) (sz : Size) (e : Ea) :
    (s.autoUpdate sz e).vbr = s.vbr := by cases e <;> simp [State.autoUpdate]
@[simp] theorem State.autoUpdate_ctrl (s : State) (sz : Size) (e : Ea) :
    (s.autoUpdate sz e).ctrl = s.ctrl := by cases e <;> simp [State.autoUpdate]
@[simp] theorem State.autoUpdate_mem (s : State) (sz : Size) (e : Ea) :
    (s.autoUpdate sz e).mem = s.mem := by cases e <;> simp [State.autoUpdate]
@[simp] theorem State.autoUpdate_runState (s : State) (sz : Size) (e : Ea) :
    (s.autoUpdate sz e).runState = s.runState := by cases e <;> simp [State.autoUpdate]
@[simp] theorem State.autoUpdate_fault (s : State) (sz : Size) (e : Ea) :
    (s.autoUpdate sz e).fault = s.fault := by cases e <;> simp [State.autoUpdate]
@[simp] theorem State.autoUpdate_refused (s : State) (sz : Size) (e : Ea) :
    (s.autoUpdate sz e).refused = s.refused := by cases e <;> simp [State.autoUpdate]
@[simp] theorem State.autoUpdate_afterException (s : State) (sz : Size) (e : Ea) :
    (s.autoUpdate sz e).afterException = s.afterException := by cases e <;> simp [State.autoUpdate]
@[simp] theorem State.autoUpdate_ioLog (s : State) (sz : Size) (e : Ea) :
    (s.autoUpdate sz e).ioLog = s.ioLog := by cases e <;> simp [State.autoUpdate]
@[simp] theorem State.autoUpdate_ipl (s : State) (sz : Size) (e : Ea) :
    (s.autoUpdate sz e).ipl = s.ipl := by cases e <;> simp [State.autoUpdate]
@[simp] theorem State.autoUpdate_iplPrev (s : State) (sz : Size) (e : Ea) :
    (s.autoUpdate sz e).iplPrev = s.iplPrev := by cases e <;> simp [State.autoUpdate]
@[simp] theorem State.autoUpdate_drawCount (s : State) (sz : Size) (e : Ea) :
    (s.autoUpdate sz e).drawCount = s.drawCount := by cases e <;> simp [State.autoUpdate]
@[simp] theorem State.autoUpdate_cfg (s : State) (sz : Size) (e : Ea) :
    (s.autoUpdate sz e).cfg = s.cfg := by cases e <;> simp [State.autoUpdate]

@[simp] theorem State.locValue_dregs (s : State) (sz : Size) (l : Loc) :
    ((s.locValue sz l).2).dregs = s.dregs := by cases l <;> simp [State.locValue]
@[simp] theorem State.locValue_aregs (s : State) (sz : Size) (l : Loc) :
    ((s.locValue sz l).2).aregs = s.aregs := by cases l <;> simp [State.locValue]
@[simp] theorem State.locValue_ssp (s : State) (sz : Size) (l : Loc) :
    ((s.locValue sz l).2).ssp = s.ssp := by cases l <;> simp [State.locValue]
@[simp] theorem State.locValue_usp (s : State) (sz : Size) (l : Loc) :
    ((s.locValue sz l).2).usp = s.usp := by cases l <;> simp [State.locValue]
@[simp] theorem State.locValue_pc (s : State) (sz : Size) (l : Loc) :
    ((s.locValue sz l).2).pc = s.pc := by cases l <;> simp [State.locValue]
@[simp] theorem State.locValue_cursor (s : State) (sz : Size) (l : Loc) :
    ((s.locValue sz l).2).cursor = s.cursor := by cases l <;> simp [State.locValue]
@[simp] theorem State.locValue_sr (s : State) (sz : Size) (l : Loc) :
    ((s.locValue sz l).2).sr = s.sr := by cases l <;> simp [State.locValue]
@[simp] theorem State.locValue_vbr (s : State) (sz : Size) (l : Loc) :
    ((s.locValue sz l).2).vbr = s.vbr := by cases l <;> simp [State.locValue]
@[simp] theorem State.locValue_ctrl (s : State) (sz : Size) (l : Loc) :
    ((s.locValue sz l).2).ctrl = s.ctrl := by cases l <;> simp [State.locValue]
@[simp] theorem State.locValue_mem (s : State) (sz : Size) (l : Loc) :
    ((s.locValue sz l).2).mem = s.mem := by cases l <;> simp [State.locValue]
@[simp] theorem State.locValue_runState (s : State) (sz : Size) (l : Loc) :
    ((s.locValue sz l).2).runState = s.runState := by cases l <;> simp [State.locValue]
@[simp] theorem State.locValue_fault (s : State) (sz : Size) (l : Loc) :
    ((s.locValue sz l).2).fault = s.fault := by cases l <;> simp [State.locValue]
@[simp] theorem State.locValue_refused (s : State) (sz : Size) (l : Loc) :
    ((s.locValue sz l).2).refused = s.refused := by cases l <;> simp [State.locValue]
@[simp] theorem State.locValue_afterException (s : State) (sz : Size) (l : Loc) :
    ((s.locValue sz l).2).afterException = s.afterException := by cases l <;> simp [State.locValue]
@[simp] theorem State.locValue_ipl (s : State) (sz : Size) (l : Loc) :
    ((s.locValue sz l).2).ipl = s.ipl := by cases l <;> simp [State.locValue]
@[simp] theorem State.locValue_iplPrev (s : State) (sz : Size) (l : Loc) :
    ((s.locValue sz l).2).iplPrev = s.iplPrev := by cases l <;> simp [State.locValue]
@[simp] theorem State.locValue_cfg (s : State) (sz : Size) (l : Loc) :
    ((s.locValue sz l).2).cfg = s.cfg := by cases l <;> simp [State.locValue]

end Sys2Proof.Machine
end

