-- ==== Sys2Proof/Laws/Memory.lean ====
section
/-! SUPPORT. Memory and the accesses to it: what a store leaves alone, what it puts where, and the canonical
form kept by every memory operation. -/

namespace Sys2Proof.Machine

theorem spanAddrs_lt {a : Long} {n k : Nat} (h : k ∈ spanAddrs a n) : k < 2 ^ 32 := by
  simp only [spanAddrs, List.mem_map] at h
  obtain ⟨i, -, rfl⟩ := h
  exact BitVec.isLt _

@[simp] theorem spanAddrs_length (a : Long) (n : Nat) : (spanAddrs a n).length = n := by simp [spanAddrs]

/-- The bytes of one access lie at different addresses. -/
theorem spanAddrs_nodup (a : Long) {n : Nat} (h : n ≤ 4) : (spanAddrs a n).Nodup := by
  unfold spanAddrs
  apply List.Nodup.map_on _ List.nodup_range
  intro i hi j hj hij
  rw [List.mem_range] at hi hj
  bv_omega

/-- A store of bytes leaves every other address alone. -/
theorem pokeBytes_get_of_notMem (m : Memory) (as : List Nat) (vs : List Byte) {k : Nat} (h : k ∉ as) :
    Sparse.get (w := 8) (pokeBytes m as vs) k = Sparse.get (w := 8) m k := by
  induction as generalizing m vs with
  | nil => cases vs <;> rfl
  | cons a as ih =>
    cases vs with
    | nil => rfl
    | cons v vs =>
      simp only [List.mem_cons, not_or] at h
      rw [pokeBytes, ih _ _ h.2, Sparse.get_set_of_ne _ _ (Ne.symm h.1)]

/-- A store of bytes keeps the canonical form. -/
theorem pokeBytes_wf {m : Memory} (hm : Memory.wf m = true) (as : List Nat) (vs : List Byte)
    (h : ∀ a ∈ as, a < 2 ^ 32) : Memory.wf (pokeBytes m as vs) = true := by
  induction as generalizing m vs with
  | nil => cases vs <;> exact hm
  | cons a as ih =>
    cases vs with
    | nil => exact hm
    | cons v vs =>
      rw [pokeBytes]
      refine ih ?_ vs fun b hb => h b (List.mem_cons_of_mem _ hb)
      exact Sparse.set_wfFrom (Nat.zero_le _) (h a List.mem_cons_self) hm

/-- Each stored byte is where it was put. -/
theorem pokeBytes_get_of_mem {m : Memory} (hm : Memory.wf m = true) {as : List Nat} {vs : List Byte}
    (hlt : ∀ a ∈ as, a < 2 ^ 32) (hnd : as.Nodup) (hlen : as.length = vs.length) (i : Nat)
    (hi : i < as.length) :
    Sparse.get (w := 8) (pokeBytes m as vs) as[i] = vs[i]'(hlen ▸ hi) := by
  induction as generalizing m vs i with
  | nil => exact absurd hi (by simp)
  | cons a as ih =>
    cases vs with
    | nil => exact absurd hlen (by simp)
    | cons v vs =>
      have hset : Memory.wf (Sparse.set (w := 8) m a v) = true :=
        Sparse.set_wfFrom (Nat.zero_le _) (hlt a List.mem_cons_self) hm
      rw [List.nodup_cons] at hnd
      cases i with
      | zero =>
        simp only [List.getElem_cons_zero, pokeBytes]
        rw [pokeBytes_get_of_notMem _ _ _ hnd.1, Sparse.get_set hm, if_pos rfl]
      | succ i =>
        simp only [List.getElem_cons_succ, pokeBytes]
        exact ih hset (fun b hb => hlt b (List.mem_cons_of_mem _ hb)) hnd.2 (by simpa using hlen) i
          (by simpa using hi)

/-- A store leaves every byte outside its span alone. -/
theorem State.poke_byteAt (s : State) (a : Long) (sz : Size) (v : Long) {k : Nat}
    (h : k ∉ spanAddrs a sz.bytes) : (s.poke a sz v).byteAt k = s.byteAt k :=
  pokeBytes_get_of_notMem _ _ _ h

theorem State.deposit_byteAt (s : State) (a : Long) (sz : Size) (v : Long) {k : Nat}
    (h : k ∉ spanAddrs a sz.bytes) : (s.deposit a sz v).byteAt k = s.byteAt k := by
  unfold State.deposit
  split
  · rfl
  · exact State.poke_byteAt s a sz v h

theorem State.poke_wf {s : State} (h : s.mem.wf = true) (a : Long) (sz : Size) (v : Long) :
    (s.poke a sz v).mem.wf = true :=
  pokeBytes_wf h _ _ fun _ hb => spanAddrs_lt hb

theorem State.deposit_wf {s : State} (h : s.mem.wf = true) (a : Long) (sz : Size) (v : Long) :
    (s.deposit a sz v).mem.wf = true := by
  unfold State.deposit
  split
  · exact h
  · exact State.poke_wf h a sz v

/-- What a store can do: the span is mapped, and the state is the deposit. -/
theorem State.store_ok {s t : State} {a : Long} {sz : Size} {v : Long} (h : s.store a sz v = .ok t) :
    s.mappedAt a sz.bytes = true ∧ t = s.deposit a sz v := by
  unfold State.store at h
  split at h
  · exact ⟨by assumption, by simpa using h.symm⟩
  · cases h

theorem State.store_mapped {s : State} {a : Long} {sz : Size} (v : Long) (h : s.mappedAt a sz.bytes = true) :
    s.store a sz v = .ok (s.deposit a sz v) := by
  unfold State.store; rw [if_pos h]

/-- What a load can do: the span is mapped, and the answer is the access. -/
theorem State.load_ok {s t : State} {k : AccessKind} {a : Long} {sz : Size} {v : Long}
    (h : s.load k a sz = .ok (v, t)) : s.mappedAt a sz.bytes = true ∧ (v, t) = s.access k a sz := by
  unfold State.load at h
  split at h
  · exact ⟨by assumption, by simpa using h.symm⟩
  · cases h

theorem State.load_mapped {s : State} (k : AccessKind) {a : Long} {sz : Size}
    (h : s.mappedAt a sz.bytes = true) : s.load k a sz = .ok (s.access k a sz) := by
  unfold State.load; rw [if_pos h]

/-- An access of memory alone changes nothing. -/
theorem State.access_plain {s : State} (k : AccessKind) {a : Long} {sz : Size} (h : s.ioAt a sz.bytes = false) :
    s.access k a sz = (s.peek a sz, s) := by
  unfold State.access; rw [h]; rfl

theorem State.deposit_plain {s : State} {a : Long} {sz : Size} (v : Long) (h : s.ioAt a sz.bytes = false) :
    s.deposit a sz v = s.poke a sz v := by
  unfold State.deposit; rw [h]; rfl

theorem State.store_wf {s t : State} {a : Long} {sz : Size} {v : Long} (hs : s.mem.wf = true)
    (h : s.store a sz v = .ok t) : t.mem.wf = true := by
  obtain ⟨-, rfl⟩ := State.store_ok h
  exact State.deposit_wf hs a sz v

theorem State.load_mem {s t : State} {k : AccessKind} {a : Long} {sz : Size} {v : Long}
    (h : s.load k a sz = .ok (v, t)) : t.mem = s.mem := by
  have := (State.load_ok h).2
  simp only [Prod.ext_iff] at this
  rw [this.2]
  exact State.access_mem s k a sz

/-- What a push can do. -/
theorem State.push_ok {s t : State} {v : Long} (h : s.push v = .ok t) :
    s.mappedAt (s.a 7 - 4) 4 = true ∧ t = (s.setA 7 (s.a 7 - 4)).deposit (s.a 7 - 4) .l v := by
  obtain ⟨h1, h2⟩ := State.store_ok h
  refine ⟨?_, h2⟩
  rw [State.mappedAt, State.setA_cfg] at h1
  exact h1

theorem State.push_mapped {s : State} (v : Long) (h : s.mappedAt (s.a 7 - 4) 4 = true) :
    s.push v = .ok ((s.setA 7 (s.a 7 - 4)).deposit (s.a 7 - 4) .l v) := by
  unfold State.push
  exact State.store_mapped (sz := .l) v (by rw [State.mappedAt, State.setA_cfg]; exact h)

theorem State.push_wf {s t : State} {v : Long} (hs : s.mem.wf = true) (h : s.push v = .ok t) :
    t.mem.wf = true :=
  State.store_wf (by simpa using hs) h

/-- What a pull can do. -/
theorem State.pull_ok {s t : State} {v : Long} (h : s.pull = .ok (v, t)) :
    s.mappedAt (s.a 7) 4 = true ∧ v = (s.access .read (s.a 7) .l).1 ∧
      t = (s.access .read (s.a 7) .l).2.setA 7 ((s.access .read (s.a 7) .l).2.a 7 + 4) := by
  unfold State.pull at h
  split at h
  · cases h
  · rename_i v' s' hl
    obtain ⟨h1, h2⟩ := State.load_ok hl
    simp only [Except.ok.injEq, Prod.mk.injEq] at h
    obtain ⟨rfl, rfl⟩ := h
    rw [Prod.ext_iff] at h2
    exact ⟨h1, h2.1, by rw [← h2.2]⟩

theorem State.pull_mapped {s : State} (h : s.mappedAt (s.a 7) 4 = true) :
    s.pull = .ok ((s.access .read (s.a 7) .l).1,
      (s.access .read (s.a 7) .l).2.setA 7 ((s.access .read (s.a 7) .l).2.a 7 + 4)) := by
  unfold State.pull
  rw [State.load_mapped .read (sz := .l) h]

theorem State.pull_wf {s t : State} {v : Long} (hs : s.mem.wf = true) (h : s.pull = .ok (v, t)) :
    t.mem.wf = true := by
  obtain ⟨-, -, rfl⟩ := State.pull_ok h
  simpa using hs

/-- Reset memory is in canonical form when the image is. -/
theorem State.resetWith_wf {image : Memory} (h : image.wf = true) (cfg : Config) (r : ResetDraws) :
    (State.resetWith cfg image r).mem.wf = true := h

theorem State.reset_wf : State.reset.mem.wf = true := rfl

end Sys2Proof.Machine
end

