-- ==== Sys2Proof/Laws/Registers.lean ====
section
/-! SUPPORT. Register and flag reads after every update. -/

namespace Sys2Proof.Machine

/-- A data register after a write of one. -/
theorem State.d_setD (s : State) (n m : RegNo) (v : Long) : (s.setD n v).d m = if n = m then v else s.d m := by
  unfold State.d State.setD
  simp only [Vector.getElem_set]
  by_cases h : n = m
  · subst h; simp
  · have : n.toNat ≠ m.toNat := fun e => h (BitVec.eq_of_toNat_eq e)
    simp [h, this]

@[simp] theorem State.d_setD_self (s : State) (n : RegNo) (v : Long) : (s.setD n v).d n = v := by
  rw [State.d_setD, if_pos rfl]

theorem State.d_congr {s t : State} (h : t.dregs = s.dregs) (n : RegNo) : t.d n = s.d n := by
  unfold State.d; rw [h]

@[simp] theorem State.d_setA (s : State) (n m : RegNo) (v : Long) : (s.setA n v).d m = s.d m :=
  State.d_congr (by simp) m

@[simp] theorem State.d_setCcr (s : State) (f : Ccr) (m : RegNo) : (s.setCcr f).d m = s.d m := rfl

@[simp] theorem State.d_setSr (s : State) (v : Word) (m : RegNo) : (s.setSr v).d m = s.d m := rfl

@[simp] theorem State.d_deposit (s : State) (a : Long) (sz : Size) (v : Long) (m : RegNo) :
    (s.deposit a sz v).d m = s.d m := State.d_congr (by simp) m

@[simp] theorem State.d_access (s : State) (k : AccessKind) (a : Long) (sz : Size) (m : RegNo) :
    (s.access k a sz).2.d m = s.d m := State.d_congr (by simp) m

@[simp] theorem State.d_drawBit (s : State) (m : RegNo) : s.drawBit.2.d m = s.d m := rfl

@[simp] theorem State.d_autoUpdate (s : State) (sz : Size) (e : Ea) (m : RegNo) :
    (s.autoUpdate sz e).d m = s.d m := State.d_congr (by simp) m

@[simp] theorem State.d_locValue (s : State) (sz : Size) (l : Loc) (m : RegNo) :
    (s.locValue sz l).2.d m = s.d m := State.d_congr (by simp) m

/-- WriteD keeps the other registers and merges into its own (10 R33). -/
theorem State.d_writeD (s : State) (n m : RegNo) (sz : Size) (v : Long) :
    (s.writeD n sz v).d m = if n = m then sz.insert (s.d n) v else s.d m := State.d_setD _ _ _ _

/-- The mode's stack pointer choice depends on the status register and the parameters alone. -/
theorem State.onUsp_congr {s t : State} (h1 : t.sr = s.sr) (h2 : t.cfg = s.cfg) : t.onUsp = s.onUsp := by
  unfold State.onUsp State.supervisor; rw [h1, h2]

theorem State.a_congr {s t : State} (h1 : t.aregs = s.aregs) (h2 : t.ssp = s.ssp) (h3 : t.usp = s.usp)
    (h4 : t.onUsp = s.onUsp) (n : RegNo) : t.a n = s.a n := by
  unfold State.a; rw [h1, h2, h3, h4]

@[simp] theorem State.onUsp_setA (s : State) (n : RegNo) (v : Long) : (s.setA n v).onUsp = s.onUsp :=
  State.onUsp_congr (by simp) (by simp)

/-- An address register after a write of one; A7 is the stack pointer of the mode (10 R31, R32). -/
theorem State.a_setA (s : State) (n m : RegNo) (v : Long) : (s.setA n v).a m = if n = m then v else s.a m := by
  have hu := State.onUsp_setA s n v
  unfold State.a
  rw [hu]
  unfold State.setA
  by_cases hn : n.toNat < 7 <;> by_cases hm : m.toNat < 7
  · rw [dif_pos hn, dif_pos hm, dif_pos hm]
    by_cases h : n = m
    · subst h; simp
    · have : n.toNat ≠ m.toNat := fun e => h (BitVec.eq_of_toNat_eq e)
      simp [h, this]
  · have h : n ≠ m := by intro e; subst e; exact hm hn
    simp [hn, hm, h]
  · have h : n ≠ m := by intro e; subst e; exact hn hm
    rw [dif_neg hn, dif_pos hm, dif_pos hm, if_neg h]
    split <;> rfl
  · have h : n = m := by
      apply BitVec.eq_of_toNat_eq
      have := n.isLt; have := m.isLt; omega
    rw [dif_neg hn, dif_neg hm, if_pos h]
    split <;> rfl

@[simp] theorem State.a_setA_self (s : State) (n : RegNo) (v : Long) : (s.setA n v).a n = v := by
  rw [State.a_setA, if_pos rfl]

@[simp] theorem State.a_setD (s : State) (n m : RegNo) (v : Long) : (s.setD n v).a m = s.a m := rfl

@[simp] theorem State.a_writeD (s : State) (n m : RegNo) (sz : Size) (v : Long) :
    (s.writeD n sz v).a m = s.a m := rfl

@[simp] theorem State.a_deposit (s : State) (a : Long) (sz : Size) (v : Long) (m : RegNo) :
    (s.deposit a sz v).a m = s.a m :=
  State.a_congr (by simp) (by simp) (by simp) (State.onUsp_congr (by simp) (by simp)) m

@[simp] theorem State.a_access (s : State) (k : AccessKind) (a : Long) (sz : Size) (m : RegNo) :
    (s.access k a sz).2.a m = s.a m :=
  State.a_congr (by simp) (by simp) (by simp) (State.onUsp_congr (by simp) (by simp)) m

@[simp] theorem State.a_locValue (s : State) (sz : Size) (l : Loc) (m : RegNo) :
    (s.locValue sz l).2.a m = s.a m :=
  State.a_congr (by simp) (by simp) (by simp) (State.onUsp_congr (by simp) (by simp)) m

@[simp] theorem State.a_drawBit (s : State) (m : RegNo) : s.drawBit.2.a m = s.a m := rfl

/-- SR after a write of the flags: bits 15:5 stay (10 R40). -/
theorem State.setCcr_sr (s : State) (f : Ccr) : (s.setCcr f).sr = s.sr.extractLsb' 5 11 ++ f.bits := rfl

@[simp] theorem Ccr.ofBits_bits (f : Ccr) : Ccr.ofBits f.bits = f := by
  obtain ⟨x, n, z, v, c⟩ := f
  cases x <;> cases n <;> cases z <;> cases v <;> cases c <;> rfl

theorem Ccr.bits_ofBits (b : BitVec 5) : (Ccr.ofBits b).bits = b := by
  revert b; decide

@[simp] theorem State.setCcr_srHigh (s : State) (f : Ccr) :
    (s.setCcr f).sr.extractLsb' 5 11 = s.sr.extractLsb' 5 11 := by
  rw [State.setCcr_sr]
  apply BitVec.eq_of_getLsbD_eq
  intro i hi
  simp only [BitVec.getLsbD_extractLsb', BitVec.getLsbD_append]
  simp [hi]

@[simp] theorem State.ccr_setCcr (s : State) (f : Ccr) : (s.setCcr f).ccr = f := by
  have h : (s.setCcr f).sr.extractLsb' 0 5 = f.bits := by
    rw [State.setCcr_sr]
    apply BitVec.eq_of_getLsbD_eq
    intro i hi
    simp only [BitVec.getLsbD_extractLsb', BitVec.getLsbD_append]
    simp [hi]
  unfold State.ccr
  rw [h, Ccr.ofBits_bits]

theorem State.ccr_congr {s t : State} (h : t.sr = s.sr) : t.ccr = s.ccr := by unfold State.ccr; rw [h]

@[simp] theorem State.ccr_setD (s : State) (n : RegNo) (v : Long) : (s.setD n v).ccr = s.ccr := rfl

@[simp] theorem State.ccr_writeD (s : State) (n : RegNo) (sz : Size) (v : Long) :
    (s.writeD n sz v).ccr = s.ccr := rfl

@[simp] theorem State.ccr_setA (s : State) (n : RegNo) (v : Long) : (s.setA n v).ccr = s.ccr :=
  State.ccr_congr (by simp)

@[simp] theorem State.ccr_deposit (s : State) (a : Long) (sz : Size) (v : Long) :
    (s.deposit a sz v).ccr = s.ccr := State.ccr_congr (by simp)

@[simp] theorem State.ccr_access (s : State) (k : AccessKind) (a : Long) (sz : Size) :
    (s.access k a sz).2.ccr = s.ccr := State.ccr_congr (by simp)

@[simp] theorem State.ccr_autoUpdate (s : State) (sz : Size) (e : Ea) : (s.autoUpdate sz e).ccr = s.ccr :=
  State.ccr_congr (by simp)

@[simp] theorem State.ccr_locValue (s : State) (sz : Size) (l : Loc) : (s.locValue sz l).2.ccr = s.ccr :=
  State.ccr_congr (by simp)

@[simp] theorem State.ccr_drawBit (s : State) : s.drawBit.2.ccr = s.ccr := rfl

/-- Writing the flags the state already has changes nothing. -/
@[simp] theorem State.setCcr_ccr (s : State) : s.setCcr s.ccr = s := by
  have h : (s.setCcr s.ccr).sr = s.sr := by
    rw [State.setCcr_sr]
    unfold State.ccr
    rw [Ccr.bits_ofBits]
    apply BitVec.eq_of_getLsbD_eq
    intro i hi
    simp only [BitVec.getLsbD_append, BitVec.getLsbD_extractLsb']
    by_cases h5 : i < 5
    · simp [h5]
    · have h11 : i - 5 < 11 := by omega
      have : 5 + (i - 5) = i := by omega
      simp [h5, h11, this]
  calc s.setCcr s.ccr = { s with sr := (s.setCcr s.ccr).sr } := rfl
    _ = s := by rw [h]

/-- Supervisor mode is a bit of SR[15:5]. -/
theorem State.supervisor_congr {s t : State} (h : t.sr.extractLsb' 5 11 = s.sr.extractLsb' 5 11) :
    t.supervisor = s.supervisor := by
  have := congrArg (fun b : BitVec 11 => b.getLsbD 8) h
  simpa [State.supervisor, BitVec.getLsbD_extractLsb'] using this

@[simp] theorem State.supervisor_setCcr (s : State) (f : Ccr) : (s.setCcr f).supervisor = s.supervisor :=
  State.supervisor_congr (by simp)

@[simp] theorem State.onUsp_setCcr (s : State) (f : Ccr) : (s.setCcr f).onUsp = s.onUsp := by
  unfold State.onUsp; rw [State.supervisor_setCcr, State.setCcr_cfg]

@[simp] theorem State.a_setCcr (s : State) (f : Ccr) (m : RegNo) : (s.setCcr f).a m = s.a m :=
  State.a_congr (by simp) (by simp) (by simp) (State.onUsp_setCcr s f) m

/-! What the special registers are (10 R44; 46 R391 to R397). -/

@[simp] theorem State.special_sr (s : State) : s.special .sr = s.sr.setWidth 32 := rfl
@[simp] theorem State.special_ccr (s : State) : s.special .ccr = zext8 (s.sr.setWidth 32) := rfl
@[simp] theorem State.special_usp (s : State) : s.special .usp = s.userSp := rfl
@[simp] theorem State.special_control (s : State) (code : BitVec 12) :
    s.special (.control code) = s.control code := rfl
@[simp] theorem State.setSpecial_sr (s : State) (v : Long) : s.setSpecial v .sr = s.setSr (v.setWidth 16) := rfl
@[simp] theorem State.setSpecial_ccr (s : State) (v : Long) :
    s.setSpecial v .ccr = s.setCcr (Ccr.ofBits (v.setWidth 5)) := rfl
@[simp] theorem State.setSpecial_usp (s : State) (v : Long) : s.setSpecial v .usp = s.setUserSp v := rfl
@[simp] theorem State.setSpecial_control (s : State) (v : Long) (code : BitVec 12) :
    s.setSpecial v (.control code) = s.setControl code v := rfl

end Sys2Proof.Machine
end

