-- ==== Sys2Proof/Laws/Ops.lean ====
section
/-! SUPPORT. What each shared operation can do: inversion lemmas and the equations of the successful case. -/

namespace Sys2Proof.Machine

/-- `withValue` goes on only from a value. -/
theorem withValue_next {α : Type} {r : Except Fault (α × State)} {k : α → State → Result} {t : State}
    (h : withValue r k = .next t) : ∃ v s, r = .ok (v, s) ∧ k v s = .next t := by
  cases r with
  | error e => cases h
  | ok p => exact ⟨p.1, p.2, rfl, h⟩

/-- `withState` goes on only from a state. -/
theorem withState_next {r : Except Fault State} {k : State → Result} {t : State}
    (h : withState r k = .next t) : ∃ s, r = .ok s ∧ k s = .next t := by
  cases r with
  | error e => cases h
  | ok s => exact ⟨s, rfl, h⟩

@[simp] theorem withValue_ok {α : Type} (v : α) (s : State) (k : α → State → Result) :
    withValue (.ok (v, s)) k = k v s := rfl

@[simp] theorem withState_ok (s : State) (k : State → Result) : withState (.ok s) k = k s := rfl

theorem State.commit_eq (s : State) : s.commit = .next s.done := rfl

theorem State.commit_next {s t : State} (h : s.commit = .next t) : t = s.done := by
  injection h with h; exact h.symm

theorem State.goto_next {s t : State} {p : Long} (h : s.goto p = .next t) : t = s.atPc p := by
  injection h with h; exact h.symm

theorem State.finishD_eq (s : State) (x : RegNo) (v : Long) (f : Ccr) :
    s.finishD x v f = .next ((s.setD x v).setCcr f).done := rfl

theorem State.finishD_next {s t : State} {x : RegNo} {v : Long} {f : Ccr} (h : s.finishD x v f = .next t) :
    t = ((s.setD x v).setCcr f).done := by
  injection h with h; exact h.symm

/-! Where each mode points, one lemma per mode (20 R92 to R102). -/

@[simp] theorem State.locate_dn (s : State) (sz : Size) (n : RegNo) : s.locate sz (.dn n) = .dreg n := rfl
@[simp] theorem State.locate_an (s : State) (sz : Size) (n : RegNo) : s.locate sz (.an n) = .areg n := rfl
@[simp] theorem State.locate_ind (s : State) (sz : Size) (n : RegNo) : s.locate sz (.ind n) = .mem (s.a n) := rfl
@[simp] theorem State.locate_postInc (s : State) (sz : Size) (n : RegNo) : s.locate sz (.postInc n) = .mem (s.a n) := rfl
@[simp] theorem State.locate_preDec (s : State) (sz : Size) (n : RegNo) : s.locate sz (.preDec n) = .mem (s.a n - s.autoStep n sz) := rfl
@[simp] theorem State.locate_disp (s : State) (sz : Size) (n : RegNo) (d : Word) : s.locate sz (.disp n d) = .mem (s.a n + d.signExtend 32) := rfl
@[simp] theorem State.locate_index (s : State) (sz : Size) (n : RegNo) (x : Brief) : s.locate sz (.index n x) = .mem (s.a n + s.indexed x) := rfl
@[simp] theorem State.locate_absW (s : State) (sz : Size) (a : Word) : s.locate sz (.absW a) = .mem (a.signExtend 32) := rfl
@[simp] theorem State.locate_absL (s : State) (sz : Size) (a : Long) : s.locate sz (.absL a) = .mem a := rfl
@[simp] theorem State.locate_pcDisp (s : State) (sz : Size) (d : Word) : s.locate sz (.pcDisp d) = .mem (s.pcBase + d.signExtend 32) := rfl
@[simp] theorem State.locate_pcIndex (s : State) (sz : Size) (x : Brief) : s.locate sz (.pcIndex x) = .mem (s.pcBase + s.indexed x) := rfl
@[simp] theorem State.locate_immB (s : State) (sz : Size) (v : Byte) : s.locate sz (.immB v) = .value (v.setWidth 32) := rfl
@[simp] theorem State.locate_immW (s : State) (sz : Size) (v : Word) : s.locate sz (.immW v) = .value (v.setWidth 32) := rfl
@[simp] theorem State.locate_immL (s : State) (sz : Size) (v : Long) : s.locate sz (.immL v) = .value v := rfl

/-- A mode that is not PC-relative points to the same place from any base. -/
theorem State.locateFrom_eq_locate (s : State) (base : Long) (sz : Size) {e : Ea} (hd : ∀ d, e ≠ .pcDisp d)
    (hx : ∀ x, e ≠ .pcIndex x) : s.locateFrom base sz e = s.locate sz e := by
  cases e with
  | pcDisp d => exact absurd rfl (hd d)
  | pcIndex x => exact absurd rfl (hx x)
  | _ => rfl

/-- What resolving a descriptor changes does not move the parameters. -/
theorem State.locMapped_autoUpdate (s : State) (sz : Size) (e : Ea) (l : Loc) :
    (s.autoUpdate sz e).locMapped sz l = s.locMapped sz l := by
  cases l <;> simp [State.locMapped, State.mappedAt]

theorem State.readLoc_mapped {s : State} {sz : Size} {l : Loc} (h : s.locMapped sz l = true) :
    s.readLoc sz l = .ok (s.locValue sz l) := by
  cases l with
  | mem a => exact State.load_mapped .read h
  | _ => rfl

theorem State.readLoc_ok {s t : State} {sz : Size} {l : Loc} {v : Long} (h : s.readLoc sz l = .ok (v, t)) :
    s.locMapped sz l = true ∧ (v, t) = s.locValue sz l := by
  cases l with
  | mem a => exact State.load_ok h
  | _ =>
    refine ⟨rfl, ?_⟩
    injection h with h
    exact h.symm

theorem State.writeLoc_mapped {s : State} {sz : Size} {l : Loc} (v : Long) (h : s.locMapped sz l = true)
    (hv : ∀ u, l ≠ .value u) : s.writeLoc sz v l = .ok (s.written sz v l) := by
  cases l with
  | mem a => exact State.store_mapped v h
  | value u => exact absurd rfl (hv u)
  | _ => rfl

theorem State.writeLoc_ok {s t : State} {sz : Size} {l : Loc} {v : Long} (h : s.writeLoc sz v l = .ok t) :
    s.locMapped sz l = true ∧ (∀ u, l ≠ .value u) ∧ t = s.written sz v l := by
  cases l with
  | mem a =>
    obtain ⟨h1, h2⟩ := State.store_ok h
    exact ⟨h1, fun u => by simp, h2⟩
  | value u => cases h
  | dreg n =>
    injection h with h
    exact ⟨rfl, fun u => by simp, h.symm⟩
  | areg n =>
    injection h with h
    exact ⟨rfl, fun u => by simp, h.symm⟩
  | special r =>
    injection h with h
    exact ⟨rfl, fun u => by simp, h.symm⟩

/-- A source operand that can be read is read. -/
theorem State.withSource_reaches {s : State} {sz : Size} {e : Ea} (k : Long → State → Result)
    (h : s.reaches sz e = true) : s.withSource sz e k = k (s.source sz e).1 (s.source sz e).2 := by
  have h' : (s.autoUpdate sz e).locMapped sz (s.locate sz e) = true := by
    rw [State.locMapped_autoUpdate s sz e]; exact h
  simp only [State.withSource, State.resolve, if_true]
  rw [State.readLoc_mapped h']
  rfl

/-- `withSource` goes on only where the operand can be read. -/
theorem State.withSource_next {s t : State} {sz : Size} {e : Ea} {k : Long → State → Result}
    (h : s.withSource sz e k = .next t) :
    s.reaches sz e = true ∧ k (s.source sz e).1 (s.source sz e).2 = .next t := by
  simp only [State.withSource, State.resolve, if_true] at h
  obtain ⟨v, s1, h1, h2⟩ := withValue_next h
  obtain ⟨h3, h4⟩ := State.readLoc_ok h1
  rw [State.locMapped_autoUpdate s sz e] at h3
  refine ⟨h3, ?_⟩
  unfold State.source
  rw [← h4]
  exact h2

theorem State.withTarget_reaches {s : State} {sz : Size} {e : Ea} (k : Loc → Long → State → Result)
    (h : s.reaches sz e = true) :
    s.withTarget sz e k = k (s.locate sz e) (s.source sz e).1 (s.source sz e).2 :=
  State.withSource_reaches (k (s.locate sz e)) h

theorem State.withTarget_next {s t : State} {sz : Size} {e : Ea} {k : Loc → Long → State → Result}
    (h : s.withTarget sz e k = .next t) :
    s.reaches sz e = true ∧ k (s.locate sz e) (s.source sz e).1 (s.source sz e).2 = .next t :=
  State.withSource_next (k := k (s.locate sz e)) h

/-- The address of an operand in memory goes on with no access. -/
theorem State.withAddress_next {s t : State} {sz : Size} {e : Ea} {k : Long → State → Result}
    (h : s.withAddress sz e k = .next t) :
    ∃ a, s.locate sz e = .mem a ∧ k a (s.autoUpdate sz e) = .next t := by
  unfold State.withAddress at h
  split at h
  · rename_i a s1 hr
    simp only [State.resolve, if_true, Prod.mk.injEq] at hr
    exact ⟨a, hr.1, by rw [hr.2]; exact h⟩
  · cases h

theorem State.withAddress_mem {s : State} {sz : Size} {e : Ea} {a : Long} (k : Long → State → Result)
    (h : s.locate sz e = .mem a) : s.withAddress sz e k = k a (s.autoUpdate sz e) := by
  unfold State.withAddress
  simp only [State.resolve, if_true, h]

theorem State.finish_next {s t : State} {l : Loc} {sz : Size} {v : Long} {f : Ccr}
    (h : s.finish l sz v f = .next t) :
    s.locMapped sz l = true ∧ (∀ u, l ≠ .value u) ∧ t = ((s.written sz v l).setCcr f).done := by
  obtain ⟨s1, h1, h2⟩ := withState_next h
  obtain ⟨h3, h4, rfl⟩ := State.writeLoc_ok h1
  exact ⟨h3, h4, State.commit_next h2⟩

theorem State.finish_mapped {s : State} {l : Loc} {sz : Size} (v : Long) (f : Ccr)
    (h : s.locMapped sz l = true) (hv : ∀ u, l ≠ .value u) :
    s.finish l sz v f = .next ((s.written sz v l).setCcr f).done := by
  unfold State.finish
  rw [State.writeLoc_mapped v h hv]
  rfl

theorem State.locate_ne_value {s : State} {sz : Size} {e : Ea} (h : Ea.isPlace e = true) (u : Long) :
    s.locate sz e ≠ .value u := by
  cases e <;> simp_all [Ea.isPlace]

theorem State.withState_push_next {s t : State} {v : Long} {k : State → Result}
    (h : withState (s.push v) k = .next t) :
    s.mappedAt (s.a 7 - 4) 4 = true ∧
      k ((s.setA 7 (s.a 7 - 4)).deposit (s.a 7 - 4) .l v) = .next t := by
  obtain ⟨s1, h1, h2⟩ := withState_next h
  obtain ⟨h3, rfl⟩ := State.push_ok h1
  exact ⟨h3, h2⟩

/-- What taking an exception can do (60 R434): the two frame words and the vector are mapped, and the state is
the one with the frame stored, the stack pointer moved and the PC at the handler. -/
theorem State.enter_next {s t : State} {vec : BitVec 8} {pc : Long} {level : Option (BitVec 3)}
    (h : s.enter vec pc level = .next t) :
    let s1 := { s with sr := entrySr s.sr level }
    let sp := alignDown (s1.a 7)
    let s3 := (s1.deposit (sp - 4) .l pc).deposit (sp - 8) .l (frameWord (s1.a 7) vec s.sr)
    let s4 := { s3.setA 7 (sp - 8) with runState := .running, afterException := true }
    s.mappedAt (sp - 4) 4 = true ∧ s.mappedAt (sp - 8) 4 = true ∧ s.mappedAt (s.vectorAddr vec) 4 = true ∧
      t = (s4.access .read (s.vectorAddr vec) .l).2.atPc (s4.access .read (s.vectorAddr vec) .l).1 := by
  intro s1 sp s3 s4
  obtain ⟨u2, h2, h⟩ := withState_next h
  obtain ⟨h3, rfl⟩ := State.store_ok h2
  obtain ⟨u3, h4, h⟩ := withState_next h
  obtain ⟨h5, rfl⟩ := State.store_ok h4
  obtain ⟨v, u4, h6, h⟩ := withValue_next h
  obtain ⟨h7, h8⟩ := State.load_ok h6
  have hv : State.vectorAddr s4 vec = s.vectorAddr vec := by
    show State.vectorAddr (s3.setA 7 (sp - 8)) vec = _
    unfold State.vectorAddr
    simp [s3, s1]
  refine ⟨h3, ?_, ?_, ?_⟩
  · unfold State.mappedAt at h5 ⊢
    rw [State.deposit_cfg] at h5
    exact h5
  · change State.mappedAt s4 (State.vectorAddr s4 vec) 4 = true at h7
    rw [hv] at h7
    unfold State.mappedAt at h7 ⊢
    have hc : s4.cfg = s.cfg := by
      show (s3.setA 7 (sp - 8)).cfg = _
      simp [s3, s1]
    rwa [hc] at h7
  · change (v, u4) = s4.access .read (State.vectorAddr s4 vec) .l at h8
    rw [hv] at h8
    rw [State.goto_next h, ← h8]

theorem State.privileged_next {s t : State} {r : Result} (h : s.privileged r = .next t) :
    (s.supervisor = true ∧ r = .next t) ∨
      (s.supervisor = false ∧ s.raise .privilegeViolation = .next t) := by
  unfold State.privileged at h
  split at h
  · exact .inl ⟨by assumption, h⟩
  · rename_i hs
    exact .inr ⟨by simpa using hs, h⟩

theorem State.privileged_supervisor {s : State} (h : s.supervisor = true) (r : Result) :
    s.privileged r = r := by
  unfold State.privileged; rw [if_pos h]

theorem State.privileged_user {s : State} (h : s.supervisor = false) (r : Result) :
    s.privileged r = s.raise .privilegeViolation := by
  unfold State.privileged; rw [h]; rfl

/-- MOVEM's stores keep the canonical form of memory. -/
theorem storeRegs_wf {rs : List GReg} {a : Long} {s t : State} (hs : s.mem.wf = true)
    (h : storeRegs rs a s = .ok t) : t.mem.wf = true := by
  induction rs generalizing a s with
  | nil => cases h; exact hs
  | cons r rs ih =>
    rw [storeRegs] at h
    split at h
    · cases h
    · exact ih (State.store_wf hs (by assumption)) h

/-- Storing an instruction's words keeps the canonical form of memory. -/
theorem State.storeCode_wf {s : State} (h : s.mem.wf = true) (nbits w : Nat) :
    (s.storeCode nbits w).mem.wf = true :=
  pokeBytes_wf h _ _ fun _ hb => spanAddrs_lt hb

end Sys2Proof.Machine
end

