-- ==== Sys2Proof/Laws/PerInstr.lean ====
section
/-! SUPPORT. The per-instruction family EncodedLength: a legal instruction has one to three words
(30_encoding.md R130). -/

namespace Sys2Proof.Laws

/-- A descriptor takes at most two extension words (30 R133). -/
theorem ea_exts_le (e : Ea) : e.exts.length ≤ 2 := by cases e <;> simp [Ea.exts, longWords]

/-- A descriptor of RESTR or MOVEMEA takes at most one. -/
theorem ea_exts_le_one {e : Ea} {set : ModeSet} {sz : Size} (hset : set = .restr ∨ set = .movemEa)
    (h : e.legal (some set) sz = true) : e.exts.length ≤ 1 := by
  rcases hset with rfl | rfl <;> cases e <;> simp_all [Ea.exts, Ea.legal, Ea.mode, ModeSet.has]

/-- The two descriptors of a legal MOVE take at most two together (41 R200). -/
theorem move_exts_le {src dst : Ea} {tier : Tier} {sz : Size} (hd : dst.legal (some .dataAlt) sz = true)
    (h : moveCombo tier sz src.mode dst.mode = true) (hs : src.sizeFits sz = true) :
    src.exts.length + dst.exts.length ≤ 2 := by
  cases src <;> cases dst <;>
    simp_all [Ea.exts, Ea.legal, Ea.mode, Ea.sizeFits, ModeSet.has, moveCombo, longWords]

end Sys2Proof.Laws

namespace Sys2Proof.Laws.EncodedLength

/-- One to three words in every tier that admits the instruction. -/
def Statement (i : Instr) : Prop :=
  ∀ isa : Isa, i.wellFormed isa = true → 1 ≤ (encode i).length ∧ (encode i).length ≤ 3

/-- The words are the opcode word and at most two more. -/
theorem of_exts {i : Instr} (h : ∀ isa : Isa, i.wellFormed isa = true → (i.args.exts i.row).length ≤ 2) :
    Statement i := fun isa hw => by
  have := h isa hw
  simp only [encode, List.length_cons]
  omega

/-- The second half of a conjunction of Booleans. -/
theorem right {a b : Bool} (h : (a && b) = true) : b = true := (Bool.and_eq_true a b ▸ h).2

/-- The first half of a conjunction of Booleans. -/
theorem left {a b : Bool} (h : (a && b) = true) : a = true := (Bool.and_eq_true a b ▸ h).1

theorem moveB (src : Ea) (dst : Ea) : Statement (.moveB src dst) :=
  of_exts fun _ h =>
    (List.length_append (as := src.exts) (bs := dst.exts)).symm ▸
      move_exts_le (sz := .b) (right (left (right h))) (right (right h))
        (right (a := ModeSet.has .data src.mode) (left (left (right h))))

theorem moveW (src : Ea) (dst : Ea) : Statement (.moveW src dst) :=
  of_exts fun _ h =>
    (List.length_append (as := src.exts) (bs := dst.exts)).symm ▸
      move_exts_le (sz := .w) (right (left (right h))) (right (right h))
        (right (a := ModeSet.has .all src.mode) (left (left (right h))))

theorem moveL (src : Ea) (dst : Ea) : Statement (.moveL src dst) :=
  of_exts fun _ h =>
    (List.length_append (as := src.exts) (bs := dst.exts)).symm ▸
      move_exts_le (sz := .l) (right (left (right h))) (right (right h))
        (right (a := ModeSet.has .all src.mode) (left (left (right h))))

theorem moveaW (src : Ea) (rx : RegNo) : Statement (.moveaW src rx) :=
  of_exts fun _ _ => ea_exts_le src

theorem moveaL (src : Ea) (rx : RegNo) : Statement (.moveaL src rx) :=
  of_exts fun _ _ => ea_exts_le src

theorem moveq (d8 : Byte) (dx : RegNo) : Statement (.moveq d8 dx) :=
  of_exts fun _ _ => Nat.le_of_ble_eq_true rfl

theorem mov3q (q : BitVec 3) (dst : Ea) : Statement (.mov3q q dst) :=
  of_exts fun _ _ => ea_exts_le dst

theorem mvsB (src : Ea) (rx : RegNo) : Statement (.mvsB src rx) :=
  of_exts fun _ _ => ea_exts_le src

theorem mvsW (src : Ea) (rx : RegNo) : Statement (.mvsW src rx) :=
  of_exts fun _ _ => ea_exts_le src

theorem mvzB (src : Ea) (rx : RegNo) : Statement (.mvzB src rx) :=
  of_exts fun _ _ => ea_exts_le src

theorem mvzW (src : Ea) (rx : RegNo) : Statement (.mvzW src rx) :=
  of_exts fun _ _ => ea_exts_le src

theorem movemToMem (mask : Word) (dst : Ea) : Statement (.movemToMem mask dst) :=
  of_exts fun _ h =>
    Nat.succ_le_succ (ea_exts_le_one (e := dst) (set := .movemEa) (sz := .l) (.inr rfl) (right h))

theorem movemToRegs (src : Ea) (mask : Word) : Statement (.movemToRegs src mask) :=
  of_exts fun _ h =>
    Nat.succ_le_succ (ea_exts_le_one (e := src) (set := .movemEa) (sz := .l) (.inr rfl) (right h))

theorem lea (src : Ea) (rx : RegNo) : Statement (.lea src rx) :=
  of_exts fun _ _ => ea_exts_le src

theorem pea (ea : Ea) : Statement (.pea ea) :=
  of_exts fun _ _ => ea_exts_le ea

theorem link (ay : RegNo) (d16 : Word) : Statement (.link ay d16) :=
  of_exts fun _ _ => Nat.le_of_ble_eq_true rfl

theorem unlk (r : RegNo) : Statement (.unlk r) :=
  of_exts fun _ _ => Nat.le_of_ble_eq_true rfl

theorem clrB (ea : Ea) : Statement (.clrB ea) :=
  of_exts fun _ _ => ea_exts_le ea

theorem clrW (ea : Ea) : Statement (.clrW ea) :=
  of_exts fun _ _ => ea_exts_le ea

theorem clrL (ea : Ea) : Statement (.clrL ea) :=
  of_exts fun _ _ => ea_exts_le ea

theorem swap (r : RegNo) : Statement (.swap r) :=
  of_exts fun _ _ => Nat.le_of_ble_eq_true rfl

theorem addEaDn (src : Ea) (rx : RegNo) : Statement (.addEaDn src rx) :=
  of_exts fun _ _ => ea_exts_le src

theorem addDnEa (ry : RegNo) (dst : Ea) : Statement (.addDnEa ry dst) :=
  of_exts fun _ _ => ea_exts_le dst

theorem adda (src : Ea) (rx : RegNo) : Statement (.adda src rx) :=
  of_exts fun _ _ => ea_exts_le src

theorem addi (imm : Long) (dx : RegNo) : Statement (.addi imm dx) :=
  of_exts fun _ _ => Nat.le_of_ble_eq_true rfl

theorem addq (q : BitVec 3) (dst : Ea) : Statement (.addq q dst) :=
  of_exts fun _ _ => ea_exts_le dst

theorem addx (dy : RegNo) (dx : RegNo) : Statement (.addx dy dx) :=
  of_exts fun _ _ => Nat.le_of_ble_eq_true rfl

theorem subEaDn (src : Ea) (rx : RegNo) : Statement (.subEaDn src rx) :=
  of_exts fun _ _ => ea_exts_le src

theorem subDnEa (ry : RegNo) (dst : Ea) : Statement (.subDnEa ry dst) :=
  of_exts fun _ _ => ea_exts_le dst

theorem suba (src : Ea) (rx : RegNo) : Statement (.suba src rx) :=
  of_exts fun _ _ => ea_exts_le src

theorem subi (imm : Long) (dx : RegNo) : Statement (.subi imm dx) :=
  of_exts fun _ _ => Nat.le_of_ble_eq_true rfl

theorem subq (q : BitVec 3) (dst : Ea) : Statement (.subq q dst) :=
  of_exts fun _ _ => ea_exts_le dst

theorem subx (dy : RegNo) (dx : RegNo) : Statement (.subx dy dx) :=
  of_exts fun _ _ => Nat.le_of_ble_eq_true rfl

theorem cmpB (src : Ea) (rx : RegNo) : Statement (.cmpB src rx) :=
  of_exts fun _ _ => ea_exts_le src

theorem cmpW (src : Ea) (rx : RegNo) : Statement (.cmpW src rx) :=
  of_exts fun _ _ => ea_exts_le src

theorem cmpL (src : Ea) (rx : RegNo) : Statement (.cmpL src rx) :=
  of_exts fun _ _ => ea_exts_le src

theorem cmpaW (src : Ea) (rx : RegNo) : Statement (.cmpaW src rx) :=
  of_exts fun _ _ => ea_exts_le src

theorem cmpaL (src : Ea) (rx : RegNo) : Statement (.cmpaL src rx) :=
  of_exts fun _ _ => ea_exts_le src

theorem cmpiB (imm : Byte) (dx : RegNo) : Statement (.cmpiB imm dx) :=
  of_exts fun _ _ => Nat.le_of_ble_eq_true rfl

theorem cmpiW (imm : Word) (dx : RegNo) : Statement (.cmpiW imm dx) :=
  of_exts fun _ _ => Nat.le_of_ble_eq_true rfl

theorem cmpiL (imm : Long) (dx : RegNo) : Statement (.cmpiL imm dx) :=
  of_exts fun _ _ => Nat.le_of_ble_eq_true rfl

theorem neg (r : RegNo) : Statement (.neg r) :=
  of_exts fun _ _ => Nat.le_of_ble_eq_true rfl

theorem negx (r : RegNo) : Statement (.negx r) :=
  of_exts fun _ _ => Nat.le_of_ble_eq_true rfl

theorem extW (r : RegNo) : Statement (.extW r) :=
  of_exts fun _ _ => Nat.le_of_ble_eq_true rfl

theorem extL (r : RegNo) : Statement (.extL r) :=
  of_exts fun _ _ => Nat.le_of_ble_eq_true rfl

theorem extbL (r : RegNo) : Statement (.extbL r) :=
  of_exts fun _ _ => Nat.le_of_ble_eq_true rfl

theorem tstB (ea : Ea) : Statement (.tstB ea) :=
  of_exts fun _ _ => ea_exts_le ea

theorem tstW (ea : Ea) : Statement (.tstW ea) :=
  of_exts fun _ _ => ea_exts_le ea

theorem tstL (ea : Ea) : Statement (.tstL ea) :=
  of_exts fun _ _ => ea_exts_le ea

theorem sats (r : RegNo) : Statement (.sats r) :=
  of_exts fun _ _ => Nat.le_of_ble_eq_true rfl

theorem muluW (src : Ea) (rx : RegNo) : Statement (.muluW src rx) :=
  of_exts fun _ _ => ea_exts_le src

theorem mulsW (src : Ea) (rx : RegNo) : Statement (.mulsW src rx) :=
  of_exts fun _ _ => ea_exts_le src

theorem muluL (src : Ea) (dx : RegNo) : Statement (.muluL src dx) :=
  of_exts fun _ h =>
    Nat.succ_le_succ (ea_exts_le_one (e := src) (set := .restr) (sz := .l) (.inl rfl) (right h))

theorem mulsL (src : Ea) (dx : RegNo) : Statement (.mulsL src dx) :=
  of_exts fun _ h =>
    Nat.succ_le_succ (ea_exts_le_one (e := src) (set := .restr) (sz := .l) (.inl rfl) (right h))

theorem divuW (src : Ea) (rx : RegNo) : Statement (.divuW src rx) :=
  of_exts fun _ _ => ea_exts_le src

theorem divsW (src : Ea) (rx : RegNo) : Statement (.divsW src rx) :=
  of_exts fun _ _ => ea_exts_le src

theorem divuL (src : Ea) (dx : RegNo) : Statement (.divuL src dx) :=
  of_exts fun _ h =>
    Nat.succ_le_succ (ea_exts_le_one (e := src) (set := .restr) (sz := .l) (.inl rfl) (right h))

theorem divsL (src : Ea) (dx : RegNo) : Statement (.divsL src dx) :=
  of_exts fun _ h =>
    Nat.succ_le_succ (ea_exts_le_one (e := src) (set := .restr) (sz := .l) (.inl rfl) (right h))

theorem remuL (src : Ea) (dw : RegNo) (dx : RegNo) : Statement (.remuL src dw dx) :=
  of_exts fun _ h =>
    Nat.succ_le_succ (ea_exts_le_one (e := src) (set := .restr) (sz := .l) (.inl rfl) (left (right h)))

theorem remsL (src : Ea) (dw : RegNo) (dx : RegNo) : Statement (.remsL src dw dx) :=
  of_exts fun _ h =>
    Nat.succ_le_succ (ea_exts_le_one (e := src) (set := .restr) (sz := .l) (.inl rfl) (left (right h)))

theorem andEaDn (src : Ea) (rx : RegNo) : Statement (.andEaDn src rx) :=
  of_exts fun _ _ => ea_exts_le src

theorem andDnEa (ry : RegNo) (dst : Ea) : Statement (.andDnEa ry dst) :=
  of_exts fun _ _ => ea_exts_le dst

theorem andi (imm : Long) (dx : RegNo) : Statement (.andi imm dx) :=
  of_exts fun _ _ => Nat.le_of_ble_eq_true rfl

theorem orEaDn (src : Ea) (rx : RegNo) : Statement (.orEaDn src rx) :=
  of_exts fun _ _ => ea_exts_le src

theorem orDnEa (ry : RegNo) (dst : Ea) : Statement (.orDnEa ry dst) :=
  of_exts fun _ _ => ea_exts_le dst

theorem ori (imm : Long) (dx : RegNo) : Statement (.ori imm dx) :=
  of_exts fun _ _ => Nat.le_of_ble_eq_true rfl

theorem eor (ry : RegNo) (dst : Ea) : Statement (.eor ry dst) :=
  of_exts fun _ _ => ea_exts_le dst

theorem eori (imm : Long) (dx : RegNo) : Statement (.eori imm dx) :=
  of_exts fun _ _ => Nat.le_of_ble_eq_true rfl

theorem notL (r : RegNo) : Statement (.notL r) :=
  of_exts fun _ _ => Nat.le_of_ble_eq_true rfl

theorem aslImm (count : BitVec 3) (dx : RegNo) : Statement (.aslImm count dx) :=
  of_exts fun _ _ => Nat.le_of_ble_eq_true rfl

theorem aslReg (dy : RegNo) (dx : RegNo) : Statement (.aslReg dy dx) :=
  of_exts fun _ _ => Nat.le_of_ble_eq_true rfl

theorem asrImm (count : BitVec 3) (dx : RegNo) : Statement (.asrImm count dx) :=
  of_exts fun _ _ => Nat.le_of_ble_eq_true rfl

theorem asrReg (dy : RegNo) (dx : RegNo) : Statement (.asrReg dy dx) :=
  of_exts fun _ _ => Nat.le_of_ble_eq_true rfl

theorem lslImm (count : BitVec 3) (dx : RegNo) : Statement (.lslImm count dx) :=
  of_exts fun _ _ => Nat.le_of_ble_eq_true rfl

theorem lslReg (dy : RegNo) (dx : RegNo) : Statement (.lslReg dy dx) :=
  of_exts fun _ _ => Nat.le_of_ble_eq_true rfl

theorem lsrImm (count : BitVec 3) (dx : RegNo) : Statement (.lsrImm count dx) :=
  of_exts fun _ _ => Nat.le_of_ble_eq_true rfl

theorem lsrReg (dy : RegNo) (dx : RegNo) : Statement (.lsrReg dy dx) :=
  of_exts fun _ _ => Nat.le_of_ble_eq_true rfl

theorem btstReg (ry : RegNo) (dst : Ea) : Statement (.btstReg ry dst) :=
  of_exts fun _ _ => ea_exts_le dst

theorem btstImm (n : Byte) (dst : Ea) : Statement (.btstImm n dst) :=
  of_exts fun _ h =>
    Nat.succ_le_succ (ea_exts_le_one (e := dst) (set := .restr) (sz := .b) (.inl rfl) (right h))

theorem bchgReg (ry : RegNo) (dst : Ea) : Statement (.bchgReg ry dst) :=
  of_exts fun _ _ => ea_exts_le dst

theorem bchgImm (n : Byte) (dst : Ea) : Statement (.bchgImm n dst) :=
  of_exts fun _ h =>
    Nat.succ_le_succ (ea_exts_le_one (e := dst) (set := .restr) (sz := .b) (.inl rfl) (right h))

theorem bclrReg (ry : RegNo) (dst : Ea) : Statement (.bclrReg ry dst) :=
  of_exts fun _ _ => ea_exts_le dst

theorem bclrImm (n : Byte) (dst : Ea) : Statement (.bclrImm n dst) :=
  of_exts fun _ h =>
    Nat.succ_le_succ (ea_exts_le_one (e := dst) (set := .restr) (sz := .b) (.inl rfl) (right h))

theorem bsetReg (ry : RegNo) (dst : Ea) : Statement (.bsetReg ry dst) :=
  of_exts fun _ _ => ea_exts_le dst

theorem bsetImm (n : Byte) (dst : Ea) : Statement (.bsetImm n dst) :=
  of_exts fun _ h =>
    Nat.succ_le_succ (ea_exts_le_one (e := dst) (set := .restr) (sz := .b) (.inl rfl) (right h))

theorem bitrev (r : RegNo) : Statement (.bitrev r) :=
  of_exts fun _ _ => Nat.le_of_ble_eq_true rfl

theorem byterev (r : RegNo) : Statement (.byterev r) :=
  of_exts fun _ _ => Nat.le_of_ble_eq_true rfl

theorem ff1 (r : RegNo) : Statement (.ff1 r) :=
  of_exts fun _ _ => Nat.le_of_ble_eq_true rfl

theorem tas (ea : Ea) : Statement (.tas ea) :=
  of_exts fun _ _ => ea_exts_le ea

theorem bccB (cond : Cond) (d8 : Byte) : Statement (.bccB cond d8) :=
  of_exts fun _ _ => Nat.le_of_ble_eq_true rfl

theorem bccW (cond : Cond) (d16 : Word) : Statement (.bccW cond d16) :=
  of_exts fun _ _ => Nat.le_of_ble_eq_true rfl

theorem bccL (cond : Cond) (d32 : Long) : Statement (.bccL cond d32) :=
  of_exts fun _ _ => Nat.le_of_ble_eq_true rfl

theorem braB (d8 : Byte) : Statement (.braB d8) :=
  of_exts fun _ _ => Nat.le_of_ble_eq_true rfl

theorem braW (d16 : Word) : Statement (.braW d16) :=
  of_exts fun _ _ => Nat.le_of_ble_eq_true rfl

theorem braL (d32 : Long) : Statement (.braL d32) :=
  of_exts fun _ _ => Nat.le_of_ble_eq_true rfl

theorem bsrB (d8 : Byte) : Statement (.bsrB d8) :=
  of_exts fun _ _ => Nat.le_of_ble_eq_true rfl

theorem bsrW (d16 : Word) : Statement (.bsrW d16) :=
  of_exts fun _ _ => Nat.le_of_ble_eq_true rfl

theorem bsrL (d32 : Long) : Statement (.bsrL d32) :=
  of_exts fun _ _ => Nat.le_of_ble_eq_true rfl

theorem jmp (ea : Ea) : Statement (.jmp ea) :=
  of_exts fun _ _ => ea_exts_le ea

theorem jsr (ea : Ea) : Statement (.jsr ea) :=
  of_exts fun _ _ => ea_exts_le ea

theorem rts : Statement (.rts) :=
  of_exts fun _ _ => Nat.le_of_ble_eq_true rfl

theorem scc (cond : Cond) (dx : RegNo) : Statement (.scc cond dx) :=
  of_exts fun _ _ => Nat.le_of_ble_eq_true rfl

theorem tpf : Statement (.tpf) :=
  of_exts fun _ _ => Nat.le_of_ble_eq_true rfl

theorem tpfW (imm : Word) : Statement (.tpfW imm) :=
  of_exts fun _ _ => Nat.le_of_ble_eq_true rfl

theorem tpfL (imm : Long) : Statement (.tpfL imm) :=
  of_exts fun _ _ => Nat.le_of_ble_eq_true rfl

theorem nop : Statement (.nop) :=
  of_exts fun _ _ => Nat.le_of_ble_eq_true rfl

theorem trap (v : BitVec 4) : Statement (.trap v) :=
  of_exts fun _ _ => Nat.le_of_ble_eq_true rfl

theorem illegal : Statement (.illegal) :=
  of_exts fun _ _ => Nat.le_of_ble_eq_true rfl

theorem moveFromSr (r : RegNo) : Statement (.moveFromSr r) :=
  of_exts fun _ _ => Nat.le_of_ble_eq_true rfl

theorem moveToSr (ea : Ea) : Statement (.moveToSr ea) :=
  of_exts fun _ _ => ea_exts_le ea

theorem moveFromCcr (r : RegNo) : Statement (.moveFromCcr r) :=
  of_exts fun _ _ => Nat.le_of_ble_eq_true rfl

theorem moveToCcr (ea : Ea) : Statement (.moveToCcr ea) :=
  of_exts fun _ _ => ea_exts_le ea

theorem moveToUsp (r : RegNo) : Statement (.moveToUsp r) :=
  of_exts fun _ _ => Nat.le_of_ble_eq_true rfl

theorem moveFromUsp (r : RegNo) : Statement (.moveFromUsp r) :=
  of_exts fun _ _ => Nat.le_of_ble_eq_true rfl

theorem movec (ry : GReg) (code : BitVec 12) : Statement (.movec ry code) :=
  of_exts fun _ _ => Nat.le_of_ble_eq_true rfl

theorem rte : Statement (.rte) :=
  of_exts fun _ _ => Nat.le_of_ble_eq_true rfl

theorem stop (imm : Word) : Statement (.stop imm) :=
  of_exts fun _ _ => Nat.le_of_ble_eq_true rfl

theorem halt : Statement (.halt) :=
  of_exts fun _ _ => Nat.le_of_ble_eq_true rfl

theorem pulse : Statement (.pulse) :=
  of_exts fun _ _ => Nat.le_of_ble_eq_true rfl

theorem strldsr (second : Word) (imm : Word) : Statement (.strldsr second imm) :=
  of_exts fun _ _ => Nat.le_of_ble_eq_true rfl

theorem cpushlDc (r : RegNo) : Statement (.cpushlDc r) :=
  of_exts fun _ _ => Nat.le_of_ble_eq_true rfl

theorem cpushlIc (r : RegNo) : Statement (.cpushlIc r) :=
  of_exts fun _ _ => Nat.le_of_ble_eq_true rfl

theorem cpushlBc (r : RegNo) : Statement (.cpushlBc r) :=
  of_exts fun _ _ => Nat.le_of_ble_eq_true rfl

theorem intouch (r : RegNo) : Statement (.intouch r) :=
  of_exts fun _ _ => Nat.le_of_ble_eq_true rfl

theorem wddataB (ea : Ea) : Statement (.wddataB ea) :=
  of_exts fun _ _ => ea_exts_le ea

theorem wddataW (ea : Ea) : Statement (.wddataW ea) :=
  of_exts fun _ _ => ea_exts_le ea

theorem wddataL (ea : Ea) : Statement (.wddataL ea) :=
  of_exts fun _ _ => ea_exts_le ea

theorem wdebug (second : Word) (ea : Ea) : Statement (.wdebug second ea) :=
  of_exts fun _ h =>
    Nat.succ_le_succ (ea_exts_le_one (e := ea) (set := .movemEa) (sz := .l) (.inr rfl) (right h))

end Sys2Proof.Laws.EncodedLength
end

