-- ==== Sys2Proof/Tests/Slice0.lean ====
section
/-! SUPPORT. Tests of the model: words and vectors of the spec (95_test_vectors.md; the id of a vector stands in the
test's docstring), ill-formed terms refused, and states that meet the hypotheses of the statements. -/

set_option Elab.async false

namespace Sys2Proof.Tests

open Machine

/-! ### Helpers -/

/-- Tier C with divide. -/
def tierC : Isa := { tier := .c, hwDivide := true }

/-- Tier A with divide. -/
def tierA : Isa := { tier := .a, hwDivide := true }

/-- The words decode to the instruction, all of them, and the instruction encodes to the words. -/
def reads (p : List Word × Instr) : Bool :=
  (match decodeWords tierC p.1 with
    | .ok (i, n) => decide (i = p.2) && n == p.1.length
    | .error _ => false) && encode p.2 == p.1

/-- The state with words stored at its PC. -/
def code (ws : List Word) (s : State) : State :=
  { s with mem := pokeBytes s.mem (spanAddrs s.pc (2 * ws.length)) (bytesOfWords ws) }

/-- The outcome is a next state with the property. -/
def gives (r : Result) (p : State → Bool) : Bool :=
  match r with
  | .next t => p t
  | _ => false

/-- The step over the words at the PC gives a next state with the property. -/
def runs (ws : List Word) (s : State) (p : State → Bool) : Bool := gives (step (code ws s)) p

theorem gives_next {r : Result} {p : State → Bool} (h : gives r p = true) : ∃ t, r = .next t ∧ p t = true := by
  cases r with
  | next t => exact ⟨t, rfl, h⟩
  | fault f => cases h
  | refused q => cases h

/-- The state right after reset. -/
abbrev s0 : State := State.reset

/-- The flags as five Booleans. -/
def fl (x n z v c : Bool) : Ccr := { x := x, n := n, z := z, v := v, c := c }

/-- The long word of memory at an address. -/
def long (s : State) (a : Long) : Long := s.peek a .l

/-- A state in user mode with a handler for privilege violations at 0x3000. -/
def user : State := ({ s0 with sr := 0, usp := 0x5000 }).poke 0x20 .l 0x3000

/-! ### Ill-formed terms are refused, one for each check of WellFormed -/

theorem test_refuses_row_of_higher_tier : Instr.wellFormed tierA (.bitrev 0) = false := by decide
theorem test_refuses_divide_without_option :
    Instr.wellFormed { tier := .c, hwDivide := false } (.divuW (.dn 1) 0) = false := by decide
theorem test_refuses_mode_outside_set : Instr.wellFormed tierC (.addDnEa 0 (.dn 1)) = false := by decide
theorem test_refuses_operand_of_row_without_set : Ea.legal (.dn 0) none .l = false := by decide
theorem test_refuses_immediate_of_other_size : Instr.wellFormed tierC (.moveB (.immW 5) (.dn 0)) = false := by decide
theorem test_refuses_move_combination : Instr.wellFormed tierC (.moveL (.absL 0) (.absW 0)) = false := by decide
theorem test_refuses_move_destination : Instr.wellFormed tierC (.moveL (.dn 0) (.immL 5)) = false := by decide
theorem test_refuses_immediate_to_displacement_in_tier_a :
    Instr.wellFormed tierA (.moveB (.immB 1) (.disp 0 4)) = false := by decide
theorem test_refuses_remainder_with_equal_registers : Instr.wellFormed tierC (.remuL (.dn 1) 2 2) = false := by decide
theorem test_refuses_condition_of_bra : Instr.wellFormed tierC (.bccW .t 4) = false := by decide
theorem test_refuses_condition_of_bsr : Instr.wellFormed tierC (.bccL .f 4) = false := by decide
theorem test_refuses_word_code_in_byte_branch : Instr.wellFormed tierC (.bccB .ne 0) = false := by decide
theorem test_refuses_long_code_in_byte_branch : Instr.wellFormed tierC (.braB 0xFF) = false := by decide

/-! ### Words of the spec's encodings, one for each constructor -/

theorem test_words_data_movement : ([
    ([0x1F00], .moveB (.dn 0) (.preDec 7)), ([0x3200], .moveW (.dn 0) (.dn 1)),
    ([0x20D8], .moveL (.postInc 0) (.postInc 0)), ([0x203C, 0x1234, 0x5678], .moveL (.immL 0x12345678) (.dn 0)),
    ([0x3441], .moveaW (.dn 1) 2), ([0x2441], .moveaL (.dn 1) 2), ([0x70FF], .moveq 0xFF 0),
    ([0xA143], .mov3q 0 (.dn 3)), ([0x7501], .mvsB (.dn 1) 2), ([0x7541], .mvsW (.dn 1) 2),
    ([0x7581], .mvzB (.dn 1) 2), ([0x75C1], .mvzW (.dn 1) 2)] : List (List Word × Instr)).all reads = true := by decide

theorem test_words_data_movement_rest : ([
    ([0x48D0, 0x0003], .movemToMem 3 (.ind 0)), ([0x4CD0, 0x0300], .movemToRegs (.ind 0) 0x0300),
    ([0x43E8, 0x0008], .lea (.disp 0 8) 1), ([0x4878, 0x0010], .pea (.absW 0x10)), ([0x4E56, 0xFFF8], .link 6 0xFFF8),
    ([0x4E5E], .unlk 6), ([0x4223], .clrB (.preDec 3)), ([0x4240], .clrW (.dn 0)),
    ([0x42B9, 0x0000, 0x2000], .clrL (.absL 0x2000)), ([0x4841], .swap 1),
    ([0x2030, 0x1800], .moveL (.index 0 { xreg := .d 1, scale := .one, d8 := 0 }) (.dn 0))] :
    List (List Word × Instr)).all reads = true := by decide

theorem test_words_add_subtract : ([
    ([0xD081], .addEaDn (.dn 1) 0), ([0xD191], .addDnEa 0 (.ind 1)), ([0xD3C0], .adda (.dn 0) 1),
    ([0x0682, 0x0000, 0x0001], .addi 1 2), ([0x5088], .addq 0 (.an 0)), ([0xD181], .addx 1 0),
    ([0x9081], .subEaDn (.dn 1) 0), ([0x9191], .subDnEa 0 (.ind 1)), ([0x93C0], .suba (.dn 0) 1),
    ([0x0480, 0x0000, 0x0001], .subi 1 0), ([0x5380], .subq 1 (.dn 0)), ([0x9181], .subx 1 0)] :
    List (List Word × Instr)).all reads = true := by decide

theorem test_words_compare_and_unary : ([
    ([0xB001], .cmpB (.dn 1) 0), ([0xB041], .cmpW (.dn 1) 0), ([0xB081], .cmpL (.dn 1) 0),
    ([0xB2C0], .cmpaW (.dn 0) 1), ([0xB3C0], .cmpaL (.dn 0) 1), ([0x0C00, 0x0080], .cmpiB 0x80 0),
    ([0x0C41, 0x8000], .cmpiW 0x8000 1), ([0x0C80, 0x00FF, 0xFFF7], .cmpiL 0x00FFFFF7 0), ([0x4480], .neg 0),
    ([0x4080], .negx 0), ([0x4880], .extW 0), ([0x48C0], .extL 0), ([0x49C0], .extbL 0), ([0x4A00], .tstB (.dn 0)),
    ([0x4A5A], .tstW (.postInc 2)), ([0x4A81], .tstL (.dn 1)), ([0x4C80], .sats 0)] :
    List (List Word × Instr)).all reads = true := by decide

theorem test_words_multiply_divide : ([
    ([0xC0C1], .muluW (.dn 1) 0), ([0xC1C1], .mulsW (.dn 1) 0), ([0x4C01, 0x3000], .muluL (.dn 1) 3),
    ([0x4C01, 0x0800], .mulsL (.dn 1) 0), ([0x80C1], .divuW (.dn 1) 0), ([0x81C1], .divsW (.dn 1) 0),
    ([0x4C41, 0x3003], .divuL (.dn 1) 3), ([0x4C41, 0x0800], .divsL (.dn 1) 0),
    ([0x4C41, 0x0002], .remuL (.dn 1) 2 0), ([0x4C41, 0x0802], .remsL (.dn 1) 2 0)] :
    List (List Word × Instr)).all reads = true := by decide

theorem test_words_logic_and_shifts : ([
    ([0xC081], .andEaDn (.dn 1) 0), ([0xC191], .andDnEa 0 (.ind 1)), ([0x0280, 0x0000, 0xFFFF], .andi 0xFFFF 0),
    ([0x8081], .orEaDn (.dn 1) 0), ([0x8191], .orDnEa 0 (.ind 1)), ([0x0080, 0x0000, 0x0001], .ori 1 0),
    ([0xB380], .eor 1 (.dn 0)), ([0x0A80, 0xFFFF, 0xFFFF], .eori 0xFFFFFFFF 0), ([0x4680], .notL 0),
    ([0xE380], .aslImm 1 0), ([0xE3A0], .aslReg 1 0), ([0xE280], .asrImm 1 0), ([0xE2A0], .asrReg 1 0),
    ([0xE388], .lslImm 1 0), ([0xE3A8], .lslReg 1 0), ([0xE088], .lsrImm 0 0), ([0xE2A8], .lsrReg 1 0)] :
    List (List Word × Instr)).all reads = true := by decide

theorem test_words_bits : ([
    ([0x0300], .btstReg 1 (.dn 0)), ([0x0800, 0x0003], .btstImm 3 (.dn 0)), ([0x0340], .bchgReg 1 (.dn 0)),
    ([0x0840, 0x0003], .bchgImm 3 (.dn 0)), ([0x0390], .bclrReg 1 (.ind 0)), ([0x0880, 0x0023], .bclrImm 0x23 (.dn 0)),
    ([0x03C0], .bsetReg 1 (.dn 0)), ([0x08D0, 0x0009], .bsetImm 9 (.ind 0)), ([0x00C0], .bitrev 0),
    ([0x02C0], .byterev 0), ([0x04C0], .ff1 0), ([0x4AD0], .tas (.ind 0))] :
    List (List Word × Instr)).all reads = true := by decide

theorem test_words_program_control : ([
    ([0x66FA], .bccB .ne 0xFA), ([0x6700, 0x0010], .bccW .eq 0x10), ([0x6DFF, 0x0000, 0x0100], .bccL .lt 0x100),
    ([0x6004], .braB 4), ([0x6000, 0x0100], .braW 0x100), ([0x60FF, 0x0000, 0x0100], .braL 0x100),
    ([0x6102], .bsrB 2), ([0x6100, 0x0100], .bsrW 0x100), ([0x61FF, 0x0000, 0x0100], .bsrL 0x100),
    ([0x4ED0], .jmp (.ind 0)), ([0x4E90], .jsr (.ind 0)), ([0x4E75], .rts), ([0x57C1], .scc .eq 1), ([0x51FC], .tpf),
    ([0x51FA, 0x1234], .tpfW 0x1234), ([0x51FB, 0x4E71, 0x4E71], .tpfL 0x4E714E71), ([0x4E71], .nop),
    ([0x4E41], .trap 1), ([0x4AFC], .illegal)] : List (List Word × Instr)).all reads = true := by decide

theorem test_words_system : ([
    ([0x40C0], .moveFromSr 0), ([0x46FC, 0x2700], .moveToSr (.immW 0x2700)), ([0x42C1], .moveFromCcr 1),
    ([0x44FC, 0x001F], .moveToCcr (.immW 0x1F)), ([0x4E60], .moveToUsp 0), ([0x4E69], .moveFromUsp 1),
    ([0x4E7B, 0x0801], .movec (.d 0) 0x801), ([0x4E73], .rte), ([0x4E72, 0x2000], .stop 0x2000), ([0x4AC8], .halt),
    ([0x4ACC], .pulse)] : List (List Word × Instr)).all reads = true := by decide

theorem test_words_not_simulated : ([
    ([0x40E7, 0x46FC, 0x2700], .strldsr 0x46FC 0x2700), ([0xF468], .cpushlDc 0), ([0xF4A9], .cpushlIc 1),
    ([0xF4E8], .cpushlBc 0), ([0xF429], .intouch 1), ([0xFB10], .wddataB (.ind 0)), ([0xFB50], .wddataW (.ind 0)),
    ([0xFB90], .wddataL (.ind 0)), ([0xFBD0, 0x0003], .wdebug 3 (.ind 0))] :
    List (List Word × Instr)).all reads = true := by decide

/-- EA mode 7 with registers 5 to 7, a byte ADD, and a branch word of tier A (30 R153). -/
theorem test_words_unmatched :
    lookup tierC 0x203D = .unmatched ∧ lookup tierC 0x203F = .unmatched ∧ lookup tierC 0xD001 = .unmatched ∧
      lookup tierC 0x4E70 = .unmatched ∧ lookup tierA 0x60FF = .unmatched ∧ lookup tierA 0xB001 = .unmatched := by decide

/-! ### Vectors of the spec, one step each -/

/-- The outcome is the refusal. -/
def stopsWith (r : Result) (q : RefusalReason) : Bool :=
  match r with
  | .refused (.stop p _) => decide (p = q)
  | _ => false

/-- The outcome is the fault, and the state it leaves has the property. -/
def faultsWith (r : Result) (q : FaultReason) (left : State → Bool) : Bool :=
  match r with
  | .fault (.hit p t) => decide (p = q) && left t
  | _ => false

/-- V1.1. -/
theorem test_move_w : runs [0x3200] ((s0.setD 0 0x12345678).setD 1 0xFFFFFFFF)
    (fun t => t.d 1 == 0xFFFF5678 && t.ccr == fl false false false false false && t.pc == 0x1002) = true := by decide +kernel

/-- V1.3. -/
theorem test_move_l_post_increment_twice : runs [0x20D8] (((s0.setA 0 0x2000).poke 0x2000 .l 0x11111111).poke 0x2004 .l 0x22222222)
    (fun t => long t 0x2004 == 0x11111111 && t.a 0 == 0x2008) = true := by decide +kernel

/-- V1.5. -/
theorem test_move_l_address_source_first : runs [0x2108] (s0.setA 0 0x2000)
    (fun t => long t 0x1FFC == 0x2000 && t.a 0 == 0x1FFC) = true := by decide +kernel

/-- V1.6. -/
theorem test_move_b_stack_pointer : runs [0x1F00] (s0.setD 0 0xAB)
    (fun t => t.a 7 == 0x3FFE && t.byteAt 0x3FFE == 0xAB && t.ccr.n) = true := by decide +kernel

/-- V1.7. -/
theorem test_movea_w : runs [0x3441] ((s0.setD 1 0x8000).setCcr (fl true true true true true))
    (fun t => t.a 2 == 0xFFFF8000 && t.ccr == fl true true true true true) = true := by decide +kernel

/-- 41 R202. -/
theorem test_movea_l : runs [0x2441] (s0.setD 1 0x80000000)
    (fun t => t.a 2 == 0x80000000 && t.ccr == fl false false false false false) = true := by decide +kernel

/-- V1.9. -/
theorem test_moveq : runs [0x70FF] (s0)
    (fun t => t.d 0 == 0xFFFFFFFF && t.ccr == fl false true false false false) = true := by decide +kernel

/-- V1.10. -/
theorem test_mov3q : runs [0xA143] (s0)
    (fun t => t.d 3 == 0xFFFFFFFF && t.ccr == fl false true false false false) = true := by decide +kernel

/-- V1.11. -/
theorem test_mov3q_line_a_in_tier_a : runs [0xA143] ({ s0 with cfg := { Config.default with isa := tierA } })
    (fun t => (long t 0x3FF8).extractLsb' 18 8 == 10 && long t 0x3FFC == 0x1000) = true := by decide +kernel

/-- V1.12. -/
theorem test_mvs_b : runs [0x7501] (s0.setD 1 0xF0)
    (fun t => t.d 2 == 0xFFFFFFF0 && t.ccr.n) = true := by decide +kernel

/-- 41 R205. -/
theorem test_mvs_w : runs [0x7541] (s0.setD 1 0x7FFF)
    (fun t => t.d 2 == 0x7FFF && !t.ccr.n) = true := by decide +kernel

/-- 41 R206. -/
theorem test_mvz_b : runs [0x7581] (s0.setD 1 0xFF80)
    (fun t => t.d 2 == 0x80 && !t.ccr.n) = true := by decide +kernel

/-- V1.13. -/
theorem test_mvz_w : runs [0x75C1] (s0.setD 1 0xFFFF8001)
    (fun t => t.d 2 == 0x8001 && t.ccr == fl false false false false false) = true := by decide +kernel

/-- V1.14. -/
theorem test_movem_to_memory : runs [0x48D0, 0x0003] (((s0.setD 0 1).setD 1 2).setA 0 0x2000)
    (fun t => long t 0x2000 == 1 && long t 0x2004 == 2 && t.a 0 == 0x2000 && t.pc == 0x1004) = true := by decide +kernel

/-- V1.16. -/
theorem test_movem_to_registers : runs [0x4CD0, 0x0300] (((s0.setA 0 0x2000).poke 0x2000 .l 0x11111111).poke 0x2004 .l 0x22222222)
    (fun t => t.a 0 == 0x11111111 && t.a 1 == 0x22222222) = true := by decide +kernel

/-- V1.17. -/
theorem test_lea : runs [0x43E8, 0x0008] (s0.setA 0 0x1000)
    (fun t => t.a 1 == 0x1008) = true := by decide +kernel

/-- V1.18. -/
theorem test_pea : runs [0x4878, 0x0010] (s0)
    (fun t => long t 0x3FFC == 0x10 && t.a 7 == 0x3FFC) = true := by decide +kernel

/-- V1.19. -/
theorem test_link : runs [0x4E56, 0xFFF8] (s0.setA 6 0x11111111)
    (fun t => long t 0x3FFC == 0x11111111 && t.a 6 == 0x3FFC && t.a 7 == 0x3FF4) = true := by decide +kernel

/-- V1.20. -/
theorem test_unlk : runs [0x4E5E] (((s0.setA 6 0x3FFC).setA 7 0x3FF4).poke 0x3FFC .l 0x11111111)
    (fun t => t.a 7 == 0x4000 && t.a 6 == 0x11111111) = true := by decide +kernel

/-- V1.22. -/
theorem test_clr_w : runs [0x4240] (s0.setD 0 0x12345678)
    (fun t => t.d 0 == 0x12340000 && t.ccr == fl false false true false false) = true := by decide +kernel

/-- 41 R213. -/
theorem test_clr_b : runs [0x4223] ((s0.setA 3 0x2001).poke 0x2000 .l 0x11223344)
    (fun t => long t 0x2000 == 0x00223344 && t.a 3 == 0x2000) = true := by decide +kernel

/-- 41 R213. -/
theorem test_clr_l : runs [0x42B9, 0x0000, 0x2000] (s0.poke 0x2000 .l 0x11223344)
    (fun t => long t 0x2000 == 0 && t.pc == 0x1006) = true := by decide +kernel

/-- V1.23. -/
theorem test_swap : runs [0x4841] (s0.setD 1 0x12345678)
    (fun t => t.d 1 == 0x56781234 && t.ccr == fl false false false false false) = true := by decide +kernel

/-- S8, V2.1. -/
theorem test_add_overflow : runs [0xD081] ((s0.setD 0 0x7FFFFFFF).setD 1 1)
    (fun t => t.d 0 == 0x80000000 && t.ccr == fl false true false true false) = true := by decide +kernel

/-- V2.2. -/
theorem test_add_carry : runs [0xD081] ((s0.setD 0 0xFFFFFFFF).setD 1 1)
    (fun t => t.d 0 == 0 && t.ccr == fl true false true false true) = true := by decide +kernel

/-- V2.3. -/
theorem test_add_to_memory : runs [0xD191] (((s0.setA 1 0x2000).poke 0x2000 .l 0xFFFFFFFF).setD 0 1)
    (fun t => long t 0x2000 == 0 && t.ccr == fl true false true false true) = true := by decide +kernel

/-- V2.4. -/
theorem test_adda : runs [0xD3C0] ((s0.setA 1 0xFFFFFFF0).setD 0 0x20)
    (fun t => t.a 1 == 0x10 && t.ccr == fl false false false false false) = true := by decide +kernel

/-- V2.5. -/
theorem test_addi : runs [0x0682, 0x0000, 0x0001] (s0.setD 2 0xFFFFFFFF)
    (fun t => t.d 2 == 0 && t.ccr == fl true false true false true && t.pc == 0x1006) = true := by decide +kernel

/-- V2.6. -/
theorem test_addq_address : runs [0x5088] ((s0.setA 0 0x1000).setCcr (fl true true true true true))
    (fun t => t.a 0 == 0x1008 && t.ccr == fl true true true true true) = true := by decide +kernel

/-- V2.7. -/
theorem test_addq_data : runs [0x5280] (s0.setD 0 0xFFFFFFFF)
    (fun t => t.d 0 == 0 && t.ccr == fl true false true false true) = true := by decide +kernel

/-- V2.8. -/
theorem test_addx_keeps_zero : runs [0xD181] ((s0.setD 1 0xFFFFFFFF).setCcr (fl true false true false false))
    (fun t => t.d 0 == 0 && t.ccr == fl true false true false true) = true := by decide +kernel

/-- V2.9. -/
theorem test_addx_zero_is_conjunctive : runs [0xD181] (s0)
    (fun t => t.d 0 == 0 && t.ccr == fl false false false false false) = true := by decide +kernel

/-- S1. -/
theorem test_sub : runs [0x9081] ((s0.setD 0 5).setD 1 3)
    (fun t => t.d 0 == 2 && t.ccr == fl false false false false false && t.pc == 0x1002) = true := by decide +kernel

/-- V2.10. -/
theorem test_sub_borrow : runs [0x9081] (s0.setD 1 1)
    (fun t => t.d 0 == 0xFFFFFFFF && t.ccr == fl true true false false true) = true := by decide +kernel

/-- 42 R257. -/
theorem test_sub_from_memory : runs [0x9191] (((s0.setA 1 0x2000).poke 0x2000 .l 5).setD 0 7)
    (fun t => long t 0x2000 == 0xFFFFFFFE && t.ccr == fl true true false false true) = true := by decide +kernel

/-- 42 R258. -/
theorem test_suba : runs [0x93C0] ((s0.setA 1 0x10).setD 0 0x20)
    (fun t => t.a 1 == 0xFFFFFFF0 && t.ccr == fl false false false false false) = true := by decide +kernel

/-- V2.11. -/
theorem test_subi : runs [0x0480, 0x0000, 0x0001] (s0.setD 0 0x80000000)
    (fun t => t.d 0 == 0x7FFFFFFF && t.ccr == fl false false false true false) = true := by decide +kernel

/-- V2.12. -/
theorem test_subq : runs [0x5380] (s0.setD 0 1)
    (fun t => t.d 0 == 0 && t.ccr == fl false false true false false) = true := by decide +kernel

/-- V2.13. -/
theorem test_subx : runs [0x9181] (s0.setCcr (fl true false true false false))
    (fun t => t.d 0 == 0xFFFFFFFF && t.ccr == fl true true false false true) = true := by decide +kernel

/-- V2.14. -/
theorem test_cmp_b : runs [0xB001] (((s0.setD 0 0x12345601).setD 1 0xAB000002).setCcr (fl true false false false false))
    (fun t => t.d 0 == 0x12345601 && t.ccr == fl true true false false true) = true := by decide +kernel

/-- 42 R262. -/
theorem test_cmp_w : runs [0xB041] ((s0.setD 0 0x00018000).setD 1 0x00020001)
    (fun t => t.ccr == fl false false false true false) = true := by decide +kernel

/-- 42 R262. -/
theorem test_cmp_l : runs [0xB081] ((s0.setD 0 3).setD 1 3)
    (fun t => t.ccr == fl false false true false false) = true := by decide +kernel

/-- V2.15. -/
theorem test_cmpi_b : runs [0x0C00, 0x0080] (s0.setD 0 0xFFFFFF80)
    (fun t => t.ccr == fl false false true false false) = true := by decide +kernel

/-- 42 R264. -/
theorem test_cmpi_w : runs [0x0C41, 0x8000] (s0.setD 1 0xFFFF7FFF)
    (fun t => t.ccr == fl false true false true true) = true := by decide +kernel

/-- P3. -/
theorem test_cmpi_l : runs [0x0C80, 0x00FF, 0xFFF7] (s0.setD 0 0x00FFFFF7)
    (fun t => t.ccr == fl false false true false false) = true := by decide +kernel

/-- V2.17. -/
theorem test_cmpa_w : runs [0xB2C0] ((s0.setD 0 0xFFFF).setA 1 0xFFFFFFFF)
    (fun t => t.ccr == fl false false true false false) = true := by decide +kernel

/-- 42 R263. -/
theorem test_cmpa_l : runs [0xB3C0] ((s0.setD 0 1).setA 1 0)
    (fun t => t.ccr == fl false true false false true) = true := by decide +kernel

/-- V2.19. -/
theorem test_neg : runs [0x4480] (s0.setD 0 0x80000000)
    (fun t => t.d 0 == 0x80000000 && t.ccr == fl true true false true true) = true := by decide +kernel

/-- V2.20. -/
theorem test_neg_zero : runs [0x4480] (s0)
    (fun t => t.ccr == fl false false true false false) = true := by decide +kernel

/-- V2.21. -/
theorem test_negx : runs [0x4080] (s0.setCcr (fl true false true false false))
    (fun t => t.d 0 == 0xFFFFFFFF && t.ccr == fl true true false false true) = true := by decide +kernel

/-- V2.22. -/
theorem test_ext_w : runs [0x4880] (s0.setD 0 0x12345680)
    (fun t => t.d 0 == 0x1234FF80 && t.ccr == fl false true false false false) = true := by decide +kernel

/-- V2.23. -/
theorem test_ext_l : runs [0x48C0] (s0.setD 0 0x8000)
    (fun t => t.d 0 == 0xFFFF8000 && t.ccr == fl false true false false false) = true := by decide +kernel

/-- V2.24. -/
theorem test_extb : runs [0x49C0] (s0.setD 0 0xFFFFFF7F)
    (fun t => t.d 0 == 0x7F && t.ccr == fl false false false false false) = true := by decide +kernel

/-- V2.25. -/
theorem test_tst_b : runs [0x4A00] (s0.setD 0 0x80)
    (fun t => t.ccr == fl false true false false false) = true := by decide +kernel

/-- 42 R270. -/
theorem test_tst_w : runs [0x4A5A] ((s0.setA 2 0x2000).poke 0x2000 .w 0)
    (fun t => t.ccr == fl false false true false false && t.a 2 == 0x2002) = true := by decide +kernel

/-- 42 R270. -/
theorem test_tst_l : runs [0x4A81] (s0.setD 1 0x80000000)
    (fun t => t.ccr == fl false true false false false) = true := by decide +kernel

/-- V2.26. -/
theorem test_sats : runs [0x4C80] ((s0.setD 0 0x80000000).setCcr (fl false false false true false))
    (fun t => t.d 0 == 0x7FFFFFFF && t.ccr == fl false false false false false) = true := by decide +kernel

/-- V3.1. -/
theorem test_mulu_w : runs [0xC0C1] ((s0.setD 0 0x1234FFFF).setD 1 0xFFFF)
    (fun t => t.d 0 == 0xFFFE0001 && t.ccr == fl false true false false false) = true := by decide +kernel

/-- V3.2. -/
theorem test_muls_w : runs [0xC1C1] ((s0.setD 0 0xFFFF).setD 1 2)
    (fun t => t.d 0 == 0xFFFFFFFE && t.ccr == fl false true false false false) = true := by decide +kernel

/-- V3.3. -/
theorem test_mulu_l : runs [0x4C01, 0x0000] ((s0.setD 0 0x10000).setD 1 0x10000)
    (fun t => t.d 0 == 0 && t.ccr == fl false false true false false) = true := by decide +kernel

/-- V3.4. -/
theorem test_muls_l : runs [0x4C01, 0x0800] ((s0.setD 0 0xFFFFFFFE).setD 1 3)
    (fun t => t.d 0 == 0xFFFFFFFA && t.ccr == fl false true false false false) = true := by decide +kernel

/-- V3.5. -/
theorem test_divu_w : runs [0x80C1] ((s0.setD 0 100).setD 1 7)
    (fun t => t.d 0 == 0x0002000E && t.ccr == fl false false false false false) = true := by decide +kernel

/-- V3.8. -/
theorem test_divs_w : runs [0x81C1] ((s0.setD 0 0xFFFFFFF9).setD 1 2)
    (fun t => t.d 0 == 0xFFFFFFFD && t.ccr == fl false true false false false) = true := by decide +kernel

/-- V3.9. -/
theorem test_divu_l : runs [0x4C41, 0x0000] ((s0.setD 0 100).setD 1 7)
    (fun t => t.d 0 == 14) = true := by decide +kernel

/-- V3.10. -/
theorem test_divs_l : runs [0x4C41, 0x0800] ((s0.setD 0 0xFFFFFF9C).setD 1 7)
    (fun t => t.d 0 == 0xFFFFFFF2 && t.ccr.n) = true := by decide +kernel

/-- V3.11. -/
theorem test_remu_l : runs [0x4C41, 0x0002] ((s0.setD 0 100).setD 1 7)
    (fun t => t.d 2 == 2 && t.d 0 == 100) = true := by decide +kernel

/-- V3.12. -/
theorem test_rems_l : runs [0x4C41, 0x0802] ((s0.setD 0 0xFFFFFF9C).setD 1 7)
    (fun t => t.d 2 == 0xFFFFFFFE) = true := by decide +kernel

/-- V4.1. -/
theorem test_and : runs [0xC081] ((s0.setD 0 0xFF00FF00).setD 1 0x0F0F0F0F)
    (fun t => t.d 0 == 0x0F000F00 && t.ccr == fl false false false false false) = true := by decide +kernel

/-- V4.2. -/
theorem test_and_to_memory : runs [0xC191] (((s0.setA 1 0x2000).poke 0x2000 .l 0x80000001).setD 0 0x80000000)
    (fun t => long t 0x2000 == 0x80000000 && t.ccr.n) = true := by decide +kernel

/-- V4.3. -/
theorem test_andi : runs [0x0280, 0x0000, 0xFFFF] (s0.setD 0 0x12345678)
    (fun t => t.d 0 == 0x5678 && t.pc == 0x1006) = true := by decide +kernel

/-- V4.4. -/
theorem test_or : runs [0x8081] ((s0.setD 0 0xF).setD 1 0x80000000)
    (fun t => t.d 0 == 0x8000000F && t.ccr.n) = true := by decide +kernel

/-- V4.5. -/
theorem test_or_to_memory : runs [0x8191] (s0.setA 1 0x2000)
    (fun t => long t 0x2000 == 0 && t.ccr == fl false false true false false) = true := by decide +kernel

/-- V4.6. -/
theorem test_ori : runs [0x0080, 0x0000, 0x0001] (s0)
    (fun t => t.d 0 == 1) = true := by decide +kernel

/-- V4.7. -/
theorem test_eor : runs [0xB380] ((s0.setD 0 0xFFFF0000).setD 1 0xFFFFFFFF)
    (fun t => t.d 0 == 0xFFFF && !t.ccr.n) = true := by decide +kernel

/-- V4.8. -/
theorem test_eori : runs [0x0A80, 0xFFFF, 0xFFFF] (s0.setD 0 0xFFFF)
    (fun t => t.d 0 == 0xFFFF0000 && t.ccr.n) = true := by decide +kernel

/-- V4.9. -/
theorem test_not : runs [0x4680] (s0)
    (fun t => t.d 0 == 0xFFFFFFFF && t.ccr.n) = true := by decide +kernel

/-- V4.10. -/
theorem test_asl_immediate : runs [0xE380] (s0.setD 0 0x40000000)
    (fun t => t.d 0 == 0x80000000 && t.ccr == fl false true false false false) = true := by decide +kernel

/-- 44 R330. -/
theorem test_asl_register : runs [0xE3A0] ((s0.setD 0 3).setD 1 31)
    (fun t => t.d 0 == 0x80000000 && t.ccr == fl true true false false true) = true := by decide +kernel

/-- V4.11. -/
theorem test_asr_immediate : runs [0xE280] (s0.setD 0 0x80000000)
    (fun t => t.d 0 == 0xC0000000 && t.ccr == fl false true false false false) = true := by decide +kernel

/-- V4.12. -/
theorem test_asr_register : runs [0xE2A0] ((s0.setD 0 0x80000000).setD 1 40)
    (fun t => t.d 0 == 0xFFFFFFFF && t.ccr == fl true true false false true) = true := by decide +kernel

/-- V4.13. -/
theorem test_lsl_immediate : runs [0xE388] (s0.setD 0 0x80000001)
    (fun t => t.d 0 == 2 && t.ccr == fl true false false false true) = true := by decide +kernel

/-- V4.14. -/
theorem test_lsl_register_32 : runs [0xE3A8] ((s0.setD 0 1).setD 1 32)
    (fun t => t.d 0 == 0 && t.ccr == fl true false true false true) = true := by decide +kernel

/-- V4.15. -/
theorem test_lsl_register_33 : runs [0xE3A8] ((s0.setD 0 0xFFFFFFFF).setD 1 33)
    (fun t => t.d 0 == 0 && t.ccr == fl false false true false false) = true := by decide +kernel

/-- V4.16. -/
theorem test_lsr_immediate_8 : runs [0xE088] (s0.setD 0 0xFFFFFFFF)
    (fun t => t.d 0 == 0x00FFFFFF && t.ccr == fl true false false false true) = true := by decide +kernel

/-- V4.17. -/
theorem test_lsr_register_32 : runs [0xE2A8] ((s0.setD 0 0x80000000).setD 1 32)
    (fun t => t.d 0 == 0 && t.ccr == fl true false true false true) = true := by decide +kernel

/-- V4.18. -/
theorem test_lsr_register_64 : runs [0xE2A8] (((s0.setD 0 0x12345678).setD 1 64).setCcr (fl true false false false true))
    (fun t => t.d 0 == 0x12345678 && t.ccr == fl true false false false false) = true := by decide +kernel

/-- V4.19. -/
theorem test_btst_immediate : runs [0x0800, 0x0003] (s0.setD 0 8)
    (fun t => t.d 0 == 8 && !t.ccr.z) = true := by decide +kernel

/-- 44 R335. -/
theorem test_btst_register : runs [0x0300] ((s0.setD 0 4).setD 1 2)
    (fun t => t.d 0 == 4 && !t.ccr.z) = true := by decide +kernel

/-- V4.20. -/
theorem test_bchg_register : runs [0x0340] (s0.setD 1 33)
    (fun t => t.d 0 == 2 && t.ccr.z) = true := by decide +kernel

/-- 44 R336. -/
theorem test_bchg_immediate : runs [0x0840, 0x0003] (s0.setD 0 0xF)
    (fun t => t.d 0 == 7 && !t.ccr.z) = true := by decide +kernel

/-- S4, V4.21. -/
theorem test_bclr_immediate : runs [0x0880, 0x0023] (s0.setD 0 0x00FFFFFF)
    (fun t => t.d 0 == 0x00FFFFF7 && !t.ccr.z && t.pc == 0x1004) = true := by decide +kernel

/-- S5. -/
theorem test_bclr_immediate_memory : runs [0x0890, 0x0009] ((s0.setA 0 0x2000).poke 0x2000 .b 0xFF)
    (fun t => t.byteAt 0x2000 == 0xFD && !t.ccr.z) = true := by decide +kernel

/-- 44 R337. -/
theorem test_bclr_register : runs [0x0390] (((s0.setA 0 0x2000).poke 0x2000 .b 0xFF).setD 1 15)
    (fun t => t.byteAt 0x2000 == 0x7F && !t.ccr.z) = true := by decide +kernel

/-- S5, V4.22. -/
theorem test_bset_immediate_memory : runs [0x08D0, 0x0009] (s0.setA 0 0x2000)
    (fun t => t.byteAt 0x2000 == 2 && t.ccr.z) = true := by decide +kernel

/-- 44 R338. -/
theorem test_bset_register : runs [0x03C0] (s0.setD 1 31)
    (fun t => t.d 0 == 0x80000000 && t.ccr.z) = true := by decide +kernel

/-- V4.23. -/
theorem test_bitrev : runs [0x00C0] (s0.setD 0 1)
    (fun t => t.d 0 == 0x80000000) = true := by decide +kernel

/-- V4.24. -/
theorem test_byterev : runs [0x02C0] (s0.setD 0 0x12345678)
    (fun t => t.d 0 == 0x78563412) = true := by decide +kernel

/-- V4.25. -/
theorem test_ff1 : runs [0x04C0] (s0.setD 0 0x00010000)
    (fun t => t.d 0 == 15 && t.ccr == fl false false false false false) = true := by decide +kernel

/-- 44 R341. -/
theorem test_ff1_zero : runs [0x04C0] (s0)
    (fun t => t.d 0 == 32 && t.ccr == fl false false true false false) = true := by decide +kernel

/-- V4.26. -/
theorem test_tas : runs [0x4AD0] (s0.setA 0 0x2000)
    (fun t => t.byteAt 0x2000 == 0x80 && t.ccr == fl false false true false false) = true := by decide +kernel

/-- V5.1. -/
theorem test_bne_taken : runs [0x66FA] ({ s0 with pc := 0x1008 })
    (fun t => t.pc == 0x1004) = true := by decide +kernel

/-- V5.2. -/
theorem test_bne_not_taken : runs [0x66FA] (({ s0 with pc := 0x1008 } : State).setCcr (fl false false true false false))
    (fun t => t.pc == 0x100A) = true := by decide +kernel

/-- V5.3. -/
theorem test_beq_w_not_taken : runs [0x6700, 0x0010] (s0)
    (fun t => t.pc == 0x1004) = true := by decide +kernel

/-- 45 R361. -/
theorem test_bcc_l_taken : runs [0x6DFF, 0x0000, 0x0100] (s0.setCcr (fl false true false false false))
    (fun t => t.pc == 0x1102) = true := by decide +kernel

/-- 45 R362. -/
theorem test_bra_b : runs [0x6004] (s0)
    (fun t => t.pc == 0x1006) = true := by decide +kernel

/-- V5.4. -/
theorem test_bra_w : runs [0x6000, 0x0100] (s0)
    (fun t => t.pc == 0x1102) = true := by decide +kernel

/-- V5.5. -/
theorem test_bra_l : runs [0x60FF, 0x0000, 0x0100] (s0)
    (fun t => t.pc == 0x1102) = true := by decide +kernel

/-- V5.7. -/
theorem test_bsr_b : runs [0x6102] ({ s0 with pc := 0x1006 })
    (fun t => long t 0x3FFC == 0x1008 && t.a 7 == 0x3FFC && t.pc == 0x100A) = true := by decide +kernel

/-- 45 R363. -/
theorem test_bsr_w : runs [0x6100, 0x0100] (s0)
    (fun t => long t 0x3FFC == 0x1004 && t.pc == 0x1102) = true := by decide +kernel

/-- 45 R363. -/
theorem test_bsr_l : runs [0x61FF, 0x0000, 0x0100] (s0)
    (fun t => long t 0x3FFC == 0x1006 && t.pc == 0x1102) = true := by decide +kernel

/-- V5.8. -/
theorem test_jmp : runs [0x4ED0] (s0.setA 0 0x2000)
    (fun t => t.pc == 0x2000) = true := by decide +kernel

/-- V5.9. -/
theorem test_jsr : runs [0x4E90] (s0.setA 0 0x2000)
    (fun t => long t 0x3FFC == 0x1002 && t.a 7 == 0x3FFC && t.pc == 0x2000) = true := by decide +kernel

/-- V5.10. -/
theorem test_rts : runs [0x4E75] ((s0.setA 7 0x3FFC).poke 0x3FFC .l 0x1008)
    (fun t => t.pc == 0x1008 && t.a 7 == 0x4000) = true := by decide +kernel

/-- V5.11. -/
theorem test_seq : runs [0x57C1] ((s0.setD 1 0x12345600).setCcr (fl false false true false false))
    (fun t => t.d 1 == 0x123456FF && t.ccr == fl false false true false false) = true := by decide +kernel

/-- V5.12. -/
theorem test_sf : runs [0x51C1] (s0.setD 1 0x123456FF)
    (fun t => t.d 1 == 0x12345600) = true := by decide +kernel

/-- 45 R368. -/
theorem test_tpf : runs [0x51FC] (s0)
    (fun t => t.pc == 0x1002) = true := by decide +kernel

/-- 45 R368. -/
theorem test_tpf_w : runs [0x51FA, 0x4E71] (s0)
    (fun t => t.pc == 0x1004) = true := by decide +kernel

/-- V5.13. -/
theorem test_tpf_l : runs [0x51FB, 0x4E71, 0x4E71] (s0)
    (fun t => t.pc == 0x1006) = true := by decide +kernel

/-- S2, V5.14. -/
theorem test_nop : runs [0x4E71] (s0)
    (fun t => decide (t = { code [0x4E71] s0 with pc := 0x1002, cursor := 0x1002 })) = true := by decide +kernel

/-- V5.15. -/
theorem test_trap : runs [0x4E41] (s0.poke 0x84 .l 0x3000)
    (fun t => long t 0x3FF8 == 0x40842700 && long t 0x3FFC == 0x1002 && t.a 7 == 0x3FF8 && t.sr == 0x2700 && t.pc == 0x3000) = true := by decide +kernel

/-- V5.16. -/
theorem test_illegal : runs [0x4AFC] (s0.poke 0x10 .l 0x3000)
    (fun t => long t 0x3FF8 == 0x40102700 && long t 0x3FFC == 0x1000 && t.pc == 0x3000) = true := by decide +kernel

/-- V6.1. -/
theorem test_move_from_sr : runs [0x40C0] ((s0.setD 0 0xFFFFFFFF).setCcr (fl false false true false false))
    (fun t => t.d 0 == 0xFFFF2704) = true := by decide +kernel

/-- V6.2. -/
theorem test_move_to_sr_user : runs [0x46FC, 0x0000] ({ s0 with usp := 0x5000 })
    (fun t => t.sr == 0 && t.a 7 == 0x5000 && t.ssp == 0x4000 && t.pc == 0x1004) = true := by decide +kernel

/-- V6.3. -/
theorem test_move_to_sr_mask : runs [0x46FC, 0xFFFF] (s0)
    (fun t => t.sr == 0xB71F) = true := by decide +kernel

/-- V6.4. -/
theorem test_move_from_ccr : runs [0x42C1] ({ s0.setD 1 0xAAAAAAAA with sr := 0x2715 })
    (fun t => t.d 1 == 0xAAAA0015) = true := by decide +kernel

/-- V6.5. -/
theorem test_move_to_ccr : runs [0x44FC, 0x001F] (s0)
    (fun t => t.sr == 0x271F) = true := by decide +kernel

/-- V6.6. -/
theorem test_move_to_usp : runs [0x4E60] (s0.setA 0 0x5000)
    (fun t => t.usp == 0x5000 && t.ssp == 0x4000) = true := by decide +kernel

/-- V6.7. -/
theorem test_move_from_usp : runs [0x4E69] ({ s0 with usp := 0x5000 })
    (fun t => t.a 1 == 0x5000) = true := by decide +kernel

/-- V6.9. -/
theorem test_movec_vbr : runs [0x4E7B, 0x0801] (s0.setD 0 0x12345678)
    (fun t => t.vbr == 0x12300000) = true := by decide +kernel

/-- 46 R397; 10 R46. -/
theorem test_movec_usp : runs [0x4E7B, 0x8800] (s0.setA 0 0x5000)
    (fun t => t.usp == 0x5000) = true := by decide +kernel

/-- V6.11. -/
theorem test_rte : runs [0x4E73] (((s0.setA 7 0x3FF8).poke 0x3FF8 .l 0x60840000).poke 0x3FFC .l 0x1002)
    (fun t => t.ssp == 0x4002 && t.sr == 0 && t.pc == 0x1002) = true := by decide +kernel

/-- V6.12. -/
theorem test_rte_format_error : runs [0x4E73] (({ s0 with pc := 0x2000, ssp := 0x3FF8 } : State).poke 0x38 .l 0x3000)
    (fun t => long t 0x3FF0 == 0x40382700 && long t 0x3FF4 == 0x2000 && t.ssp == 0x3FF0 && t.pc == 0x3000) = true := by decide +kernel

/-- V6.13. -/
theorem test_stop : runs [0x4E72, 0x2000] (s0)
    (fun t => t.sr == 0x2000 && t.pc == 0x1004 && t.runState == .stopped) = true := by decide +kernel

/-- V6.14. -/
theorem test_halt : runs [0x4AC8] ({ s0 with pc := 0x100A })
    (fun t => t.pc == 0x100C && t.runState == .halted) = true := by decide +kernel

/-- V6.15. -/
theorem test_halt_user : runs [0x4AC8] (user)
    (fun t => long t 0x3FF8 == 0x40200000 && long t 0x3FFC == 0x1000 && t.sr == 0x2000 && t.pc == 0x3000) = true := by decide +kernel

/-- V6.17. -/
theorem test_pulse : runs [0x4ACC] (s0)
    (fun t => t.pc == 0x1002) = true := by decide +kernel

/-- V6.23. -/
theorem test_cpushl_user : runs [0xF4E8] (user)
    (fun t => long t 0x3FF8 == 0x40200000 && t.pc == 0x3000) = true := by decide +kernel

/-- V7.1. -/
theorem test_reset_word_is_illegal : runs [0x4E70] (s0.poke 0x10 .l 0x3000)
    (fun t => long t 0x3FF8 == 0x40102700 && t.pc == 0x3000) = true := by decide +kernel

/-- V7.2. -/
theorem test_line_a : runs [0xA000] (s0.poke 0x28 .l 0x3000)
    (fun t => long t 0x3FF8 == 0x40282700 && long t 0x3FFC == 0x1000 && t.pc == 0x3000) = true := by decide +kernel

/-- V7.3. -/
theorem test_line_f : runs [0xF000] (s0.poke 0x2C .l 0x3000)
    (fun t => long t 0x3FF8 == 0x402C2700 && t.pc == 0x3000) = true := by decide +kernel

/-- V7.4. -/
theorem test_bad_brief_word : runs [0x2030, 0x1000] (s0.poke 0x0C .l 0x3000)
    (fun t => long t 0x3FF8 == 0x400C2700 && long t 0x3FFC == 0x1000 && t.pc == 0x3000) = true := by decide +kernel

/-- V7.5. -/
theorem test_indexed : runs [0x2030, 0x1800] (((s0.setA 0 0x2000).setD 1 4).poke 0x2004 .l 7)
    (fun t => t.d 0 == 7 && t.pc == 0x1004) = true := by decide +kernel

/-- V8.1. -/
theorem test_odd_pc : runs [] (({ s0 with pc := 0x1001 } : State).poke 0x0C .l 0x3000)
    (fun t => long t 0x3FF8 == 0x400C2700 && long t 0x3FFC == 0x1001 && t.pc == 0x3000) = true := by decide +kernel

/-- V8.2. -/
theorem test_trace : runs [0x4E71] (({ s0 with sr := 0xA700 } : State).poke 0x24 .l 0x3000)
    (fun t => long t 0x3FF8 == 0x4024A700 && long t 0x3FFC == 0x1002 && t.sr == 0x2700 && t.pc == 0x3000) = true := by decide +kernel

/-- V8.3. -/
theorem test_trap_is_not_traced : runs [0x4E40] (({ s0 with sr := 0xA700 } : State).poke 0x80 .l 0x3000)
    (fun t => long t 0x3FF8 == 0x4080A700 && long t 0x3FFC == 0x1002 && t.pc == 0x3000) = true := by decide +kernel

/-- V8.4. -/
theorem test_halt_is_not_traced : runs [0x4AC8] ({ s0 with sr := 0xA700 })
    (fun t => t.pc == 0x1002 && t.runState == .halted && t.sr == 0xA700) = true := by decide +kernel

/-- V8.5. -/
theorem test_misaligned_stack : runs [0x4E41] (({ s0 with ssp := 0x4001 } : State).poke 0x84 .l 0x3000)
    (fun t => long t 0x3FF8 == 0x50842700 && long t 0x3FFC == 0x1002 && t.ssp == 0x3FF8) = true := by decide +kernel

/-- V8.6. -/
theorem test_interrupt : runs [0x4E71] (({ s0 with sr := 0x2000, ipl := [3] } : State).poke 0x6C .l 0x3000)
    (fun t => long t 0x3FF8 == 0x406C2000 && long t 0x3FFC == 0x1000 && t.sr == 0x2300 && t.pc == 0x3000) = true := by decide +kernel

/-- V8.7. -/
theorem test_masked_interrupt : runs [0x4E71] ({ s0 with ipl := [5] })
    (fun t => t.pc == 0x1002) = true := by decide +kernel

/-- V8.8. -/
theorem test_level_7_edge : runs [0x4E71] (({ s0 with ipl := [7] } : State).poke 0x7C .l 0x3000)
    (fun t => t.pc == 0x3000 && t.intMask == 7) = true := by decide +kernel

/-- V8.9. -/
theorem test_level_7_held : runs [0x4E71] ({ s0 with ipl := [7], iplPrev := 7 })
    (fun t => t.pc == 0x1002) = true := by decide +kernel

/-- V8.10. -/
theorem test_double_fault : runs [] ({ s0 with pc := 0x2001, afterException := true })
    (fun t => t.runState == .halted && t.ssp == 0x4000) = true := by decide +kernel

/-- V1.21, 41 R212: LINK and UNLK with A7 are refused. -/
theorem test_link_a7_refused :
    stopsWith (step (code [0x4E57, 0xFFF8] s0)) (.unknownBehaviour 0x4E57) = true ∧
      stopsWith (step (code [0x4E5F] s0)) (.unknownBehaviour 0x4E5F) = true := by decide +kernel

/-- V3.13, V5.6, V6.10: reserved extension, long branch in tier A, unknown control register. -/
theorem test_refusals :
    stopsWith (step (code [0x4C01, 0x0400] s0)) (.reservedExtension 0x4C01 0x0400) = true ∧
      stopsWith (step (code [0x60FF] { s0 with cfg := { Config.default with isa := tierA } }))
        (.unknownBehaviour 0x60FF) = true ∧
      stopsWith (step (code [0x4E7B, 0x0003] s0)) (.unknownControlRegister 3) = true := by decide +kernel

/-- V6.18 to V6.22: recognised and not simulated; WDDATA is not privileged. -/
theorem test_not_simulated :
    stopsWith (step (code [0x40E7, 0x46FC, 0x2700] s0)) (.notSimulated "STRLDSR") = true ∧
      stopsWith (step (code [0xF468] s0)) (.notSimulated "CPUSHL") = true ∧
      stopsWith (step (code [0xF4A9] s0)) (.notSimulated "CPUSHL") = true ∧
      stopsWith (step (code [0xF4E8] s0)) (.notSimulated "CPUSHL") = true ∧
      stopsWith (step (code [0xF429] s0)) (.notSimulated "INTOUCH") = true ∧
      stopsWith (step (code [0xFB90] user)) (.notSimulated "WDDATA") = true ∧
      stopsWith (step (code [0xFB50] user)) (.notSimulated "WDDATA") = true ∧
      stopsWith (step (code [0xFB10] user)) (.notSimulated "WDDATA") = true ∧
      stopsWith (step (code [0xFBD0, 0x0003] s0)) (.notSimulated "WDEBUG") = true := by decide +kernel

/-- V6.16: HALT in user mode under USER_HALT. -/
theorem test_halt_user_halt :
    runs [0x4AC8] { user with cfg := { Config.default with userHalt := true } }
      (fun t => t.pc == 0x1002 && t.runState == .halted) = true := by decide +kernel

/-- V2.16, V3.14: rows absent in the tier or without the divide option are illegal instructions. -/
theorem test_absent_rows_are_illegal :
    runs [0xB001] { s0 with cfg := { Config.default with isa := tierA } }
      (fun t => (long t 0x3FF8).extractLsb' 18 8 == 4 && long t 0x3FFC == 0x1000) = true ∧
    runs [0x80C1] { s0 with cfg := { Config.default with isa := { tier := .c, hwDivide := false } } }
      (fun t => (long t 0x3FF8).extractLsb' 18 8 == 4) = true := by decide +kernel

/-- The default parameters with the bytes from 0x4000 to 0x4FFF unmapped. -/
def hole : State :=
  { s0 with cfg := { Config.default with unmapped := [{ base := 0x4000, size := 0x1000 }] } }

/-- V8.11: an unmapped operand is a fault. -/
theorem test_unmapped_operand :
    faultsWith (step (code [0x2010] (hole.setA 0 0x4000))) (.unmappedAccess 0x4000 4 .read)
      (fun t => t.pc == 0x1000) = true := by decide +kernel

/-- 41 R215: a fault leaves the state as it was when it hit: the source's A0 of `MOVE.L (A0)+,(A1)` has changed. -/
theorem test_fault_keeps_auto_register :
    faultsWith (step (code [0x2298] ((hole.setA 0 0x2000).setA 1 0x4000))) (.unmappedAccess 0x4000 4 .write)
      (fun t => t.a 0 == 0x2004 && t.pc == 0x1000) = true := by decide +kernel

/-- 41 R215, R207: MOVEM.L D0-D1,(A0) with the second long word unmapped has stored the first. -/
theorem test_fault_keeps_first_store :
    faultsWith (step (code [0x48D0, 0x0003] ((hole.setD 0 0x12345678).setA 0 0x3FFC))) (.unmappedAccess 0x4000 4 .write)
      (fun t => long t 0x3FFC == 0x12345678) = true := by decide +kernel

/-- 00 R12; 20 R87: a draw that a failed step used is not used again, after a reset either. -/
theorem test_fault_keeps_draw_count :
    let s := code [0x2290] (({ hole with cfg := { hole.cfg with io := [{ base := 0x2000, size := 4 }] } } : State)
      |>.setA 0 0x2000 |>.setA 1 0x4000)
    (s.settle (step s)).drawCount = 1 ∧ (s.settle (step s)).ioLog.length = 1 ∧
      (hostReset (s.settle (step s)) [] ResetDraws.zero).drawCount = 1 := by decide +kernel

/-- V3.6: a quotient that does not fit keeps the register, sets V and clears C. -/
theorem test_divu_w_overflow : exec (.divuW (.dn 1) 0) ((s0.setD 0 0x00100000).setD 1 1) =
    .next (((s0.setD 0 0x00100000).setD 1 1).drawNZ true false).done := rfl

/-- 43 R309: -2^31 by -1 does the same. -/
theorem test_divs_l_overflow : exec (.divsL (.dn 1) 0) ((s0.setD 0 0x80000000).setD 1 0xFFFFFFFF) =
    .next (((s0.setD 0 0x80000000).setD 1 0xFFFFFFFF).drawNZ true false).done := rfl

/-- V3.7, V3.15: a zero divisor enters vector 5, with the flags drawn and, for `(A0)+`, A0 drawn from before and
after. -/
theorem test_divide_by_zero :
    exec (.divuW (.dn 1) 0) (s0.setD 0 100) = ((s0.setD 0 100).drawNZV).enter 5 0x1000 none ∧
    exec (.divuW (.postInc 0) 0) (s0.setA 0 0x2000) = (((s0.setA 0 0x2000).setA 0 0x2002).drawNZV.drawAuto
      (s0.setA 0 0x2000) (.postInc 0)).raise .divideByZero :=
  ⟨rfl, rfl⟩

/-- 20 R91, R104: a descriptor points by the base it carries, not by the present PC, and a special register is
its own location. -/
theorem test_resolve_descriptor :
    s0.describe .l (.pcDisp (-2) 0x2002) = some (.mem 0x2000) ∧
    s0.describe .l (.special (.control 0x801)) = some (.special (.control 0x801)) ∧
    s0.describe .l (.regList 1) = none ∧ s0.readLoc .w (.special .sr) = .ok (0x2700, s0) := by decide +kernel

/-! ### Vectors of Encode, CalcSize and Decode -/

/-- Encode writes the words, and CalcSize is their length in bytes. -/
def encodesTo (c : Config) (name : String) (sz : Option Size) (o1 o2 : Option Operand) (ws : List Word) : Bool :=
  (match assembleWords c name sz o1 o2 with
    | .ok w => w == ws
    | .error _ => false) &&
  match calcSize c name sz o1 o2 with
  | .ok n => n == 2 * ws.length
  | .error _ => false

/-- Encode and CalcSize fail with the reason. -/
def failsWith (c : Config) (name : String) (sz : Option Size) (o1 o2 : Option Operand) (r : EncodeReason) : Bool :=
  (match assembleWords c name sz o1 o2 with
    | .ok _ => false
    | .error e => e.reason == r) &&
  match calcSize c name sz o1 o2 with
  | .ok _ => false
  | .error e => e.reason == r

/-- The configuration of tier C. -/
abbrev cfgC : Config := Config.default

/-- The configuration of tier A. -/
def cfgA : Config := { Config.default with isa := tierA }

/-- A branch operand at 0x1000. -/
def rel (d : Int) : Option Operand := some (.relative d (0x1002 + BitVec.ofInt 32 d))

/-- S9, S10: the size of SUB is implied. -/
theorem test_encode_sub : encodesTo cfgC "SUB" none (some (.dn 1)) (some (.dn 0)) [0x9081] = true := by decide +kernel

/-- S3: the shift count 8 is the field 0, and a count of 0 is out of range. -/
theorem test_encode_shift_counts :
    encodesTo cfgC "LSR" (some .l) (some (.imm 8 .l)) (some (.dn 0)) [0xE088] = true ∧
    encodesTo cfgC "LSL" (some .l) (some (.imm 8 .l)) (some (.dn 0)) [0xE188] = true ∧
    encodesTo cfgC "LSR" (some .l) (some (.imm 1 .l)) (some (.dn 0)) [0xE288] = true ∧
    failsWith cfgC "LSR" (some .l) (some (.imm 0 .l)) (some (.dn 0)) .valueOutOfRange = true := by decide +kernel

/-- S6, S7, V7.12, V7.13: branch offsets. -/
theorem test_encode_branches :
    failsWith cfgC "BRA" (some .w) (rel 0) none .branchOffsetInvalid = true ∧
    failsWith cfgC "BRA" none (rel 0) none .branchOffsetInvalid = true ∧
    failsWith cfgC "BRA" (some .b) (rel 130) none .branchOffsetInvalid = true ∧
    encodesTo cfgC "BRA" none (rel 130) none [0x6000, 0x0082] = true ∧
    encodesTo cfgC "BRA" (some .w) (rel 130) none [0x6000, 0x0082] = true ∧
    failsWith cfgC "BRA" (some .b) (rel (-1)) none .branchOffsetInvalid = true ∧
    failsWith cfgC "BRA" none (rel 3) none .branchOffsetInvalid = true := by decide +kernel

/-- S10: the lengths of CMPI.L and MOVE.L with a long immediate. -/
theorem test_encode_long_immediates :
    encodesTo cfgC "CMPI" (some .l) (some (.imm 0x00FFFFF7 .l)) (some (.dn 0)) [0x0C80, 0x00FF, 0xFFF7] = true ∧
    encodesTo cfgC "MOVE" (some .l) (some (.imm 0x12345678 .l)) (some (.dn 0)) [0x203C, 0x1234, 0x5678] = true := by
  decide +kernel

/-- V7.6, V7.7: quick immediates. -/
theorem test_encode_quick :
    failsWith cfgC "MOVEQ" none (some (.imm 128 .l)) (some (.dn 0)) .valueOutOfRange = true ∧
    encodesTo cfgC "ADDQ" (some .l) (some (.imm 8 .l)) (some (.an 0)) [0x5088] = true := by decide +kernel

/-- V7.8 to V7.10, V7.14, 43 R312: sizes, modes, combinations and absent rows. -/
theorem test_encode_failures :
    failsWith cfgC "CMP" none (some (.dn 1)) (some (.dn 0)) .sizeRequired = true ∧
    failsWith cfgA "CMP" (some .b) (some (.dn 1)) (some (.dn 0)) .sizeNotPermitted = true ∧
    failsWith cfgC "MOVE" (some .l) (some (.dn 0)) (some (.imm 5 .l)) .modeNotLegal = true ∧
    failsWith cfgC "REMU" (some .l) (some (.dn 1)) (some (.regPair 0 0)) .combinationNotLegal = true ∧
    failsWith { Config.default with isa := { tier := .c, hwDivide := false } } "DIVU" (some .w) (some (.dn 1))
      (some (.dn 0)) .unknownMnemonic = true := by decide +kernel

/-- V7.11: an alternate mnemonic, decoded as its primary. -/
theorem test_encode_alternate :
    encodesTo cfgC "BHS" (some .b) (rel 4) none [0x6404] = true ∧
    (match (code [0x6404] s0).disassemble 0x1000 with
      | .decoded d => d.mnemonic == "BCC" && d.size == some .b && d.op1 == rel 4
      | _ => false) = true := by decide +kernel

/-- S2, V7.1: NOP, and a word that is no instruction. -/
theorem test_disassemble :
    (code [0x4E71] s0).disassemble 0x1000 = .decoded
      { mnemonic := "NOP", size := none, word := 0x4E71, exts := [], length := 2, op1 := none, op2 := none } ∧
    (code [0x4E70] s0).disassemble 0x1000 = .unrecognized 0x4E70 := by decide +kernel

/-! ### States that meet the hypotheses of the statements, clause by clause -/

/-- The default parameters with the bytes 100 to 109 unmapped. -/
def sU : State := { s0 with cfg := { Config.default with unmapped := [{ base := 100, size := 10 }] } }

/-- The default parameters with the bytes 100 to 109 a device's. -/
def sIo : State := { s0 with cfg := { Config.default with io := [{ base := 100, size := 10 }] } }

/-- One stack pointer. -/
def sOne : State := { s0 with cfg := { Config.default with dualStack := false } }

/-- A misaligned supervisor stack. -/
def sMis : State := { s0 with ssp := 0x4003 }

/-- A frame at 0x4000 with a format in its top four bits. -/
def framed (format : Long) : State := (s0.poke 0x4000 .l (format <<< 28 ||| 0x00842715)).poke 0x4004 .l 0x1002

theorem witness_ResetIsSound : Memory.wf [(0, 1), (2 ^ 32 - 1, 255)] = true := by decide

theorem witness_StepKeepsSound : (framed 4).sound = true ∧
    gives (step (code [0x4E73] (framed 4))) (fun t => t.pc == 0x1002) = true := by decide +kernel

theorem witness_StepKeepsParameters : ∃ t, step (code [0x4E71] s0) = .next t :=
  (gives_next (p := fun _ => true) (by decide +kernel)).imp fun _ h => h.1

theorem witness_StuckContexts :
    ({ s0 with fault := some (.unmappedAccess 0 1 .read) } : State).fault = some (.unmappedAccess 0 1 .read) ∧
    (s0.fault = none ∧ ({ s0 with refused := some (.unknownBehaviour 0x60FF) } : State).refused =
      some (.unknownBehaviour 0x60FF)) ∧
    (s0.refused = none ∧ ({ s0 with runState := .halted } : State).runState = .halted) ∧
    (({ s0 with runState := .stopped, ipl := [7], iplPrev := 7 } : State).runState = .stopped ∧
      ({ s0 with runState := .stopped, ipl := [7], iplPrev := 7 } : State).interruptDue = false) := by decide

theorem witness_StatusRegisterMask : s0.supervisor = true ∧ s0.afterException = false ∧
    gives (exec .rte (framed 7)) (fun t => !t.afterException) = true ∧ s0.sr &&& ~~~0xB71F = 0 := by decide +kernel

theorem witness_StoreIsBigEndian : s0.mem.wf = true ∧ s0.plainAt 0xFFFFFFFE 4 = true ∧
    s0.plainAt 0xFFFFFFFF 1 = true := by decide +kernel

theorem witness_UnmappedAccessFaults : (∃ j < 4, sU.cfg.mapped ((97 : Long) + BitVec.ofNat 32 j).toNat = false) ∧
    ∃ j < 1, sU.cfg.mapped ((109 : Long) + BitVec.ofNat 32 j).toNat = false := by decide +kernel

/-- A PC, a destination and a stack slot that touch the hole at each end. -/
theorem witness_UnmappedAccessFaults_left :
    ([(100 : Long), 108].all fun pc => let s := { sU with pc := pc }
      s.fault == none && s.refused == none && s.runState == .running && !s.interruptDue && !s.pc.getLsbD 0) = true ∧
    ({ sU with pc := 100 } : State).mappedAt 100 2 = false ∧ ({ sU with pc := 108 } : State).mappedAt 108 2 = false ∧
    (∀ sz ∈ [Size.b, .w, .l], sU.reaches sz (.dn 0) = true ∧
      (sU.source sz (.dn 0)).2.locate sz (.absL 100) = .mem 100 ∧
      (sU.source sz (.dn 0)).2.mappedAt 100 sz.bytes = false) ∧
    sU.locate .l (.ind 0) = .mem (sU.a 0) ∧ Ea.autoRegs (.ind 0) = [] ∧
    ({ sU with ssp := 113 } : State).mappedAt (({ sU with ssp := 113 } : State).a 7 - 4) 4 = false := by decide +kernel

theorem witness_DeviceAccess : sIo.mappedAt 97 4 = true ∧
    (∃ j < 4, sIo.cfg.isIo ((97 : Long) + BitVec.ofNat 32 j).toNat = true) ∧
    (∃ j < 1, sIo.cfg.isIo ((109 : Long) + BitVec.ofNat 32 j).toNat = true) ∧
    sIo.plainAt 96 4 = true ∧ sIo.plainAt 110 4 = true := by decide +kernel

theorem witness_SourceOperandRead : s0.locate .l (.postInc 0) = .mem 0 ∧ s0.ioAt 0 4 = false ∧
    sIo.locate .l (.absL 97) = .mem 97 ∧ sIo.ioAt 97 4 = true ∧ Ea.autoRegs (.ind 7) = [] ∧
    7 ∉ Ea.autoRegs (.postInc 6) ∧ 7 ∈ Ea.autoRegs (.preDec 7) ∧ s0.onUsp = false ∧ user.onUsp = true := by
  decide +kernel

theorem witness_RegistryIsUnambiguous : lookup tierC 0x4C00 = .group [.muluL, .mulsL] ∧
    lookup tierA 0x4C41 = .group [.divuL, .divsL, .remuL, .remsL] := by decide +kernel

theorem witness_DecodeEncodeRoundTrip : Instr.wellFormed tierA (.moveL (.pcDisp 0x8000) (.disp 7 0xFFFF)) = true ∧
    Instr.wellFormed tierC (.remsL (.disp 7 0xFFFF) 0 7) = true := by decide

theorem witness_DecodedIsLegal : ∃ i n, decodeWords tierC [0x4C41, 0x0802, 0] = .ok (i, n) :=
  ⟨.remsL (.dn 1) 2 0, 2, by with_unfolding_all rfl⟩

theorem witness_DivideOptionOff : ({ tier := .a, hwDivide := false } : Isa).hwDivide = false ∧
    Op.divuW ∈ candidates tierA 0x80C1 ∧ Op.divsW ∈ candidates tierA 0x81C1 ∧
    (∀ op ∈ [Op.divuL, .divsL, .remuL, .remsL], op ∈ candidates tierA 0x4C41) ∧
    ({ s0 with cfg := { Config.default with isa := { tier := .a, hwDivide := false } } } : State).cfg.isa =
      { tier := .a, hwDivide := false } := by decide +kernel

theorem witness_CalcSizeIsEncodedLength :
    (∃ ws, assembleWords cfgC "SUB" none (some (.dn 1)) (some (.dn 0)) = .ok ws) ∧
      ∃ e, assembleWords cfgC "SUBB" none (some (.dn 1)) (some (.dn 0)) = .error e := ⟨⟨_, rfl⟩, ⟨_, rfl⟩⟩

/-- The hypotheses of StepRunsDecodedInstruction, as one Boolean. -/
def ready (s : State) (i : Instr) : Bool :=
  s.fault == none && s.refused == none && s.runState == .running && !s.interruptDue && !s.pc.getLsbD 0 &&
    i.wellFormed s.cfg.isa && s.mayRun i.op &&
    decide (∀ (k : Nat) (h : k < (encode i).length), s.plainAt (s.pc + BitVec.ofNat 32 (2 * k)) 2 = true ∧
      (s.peek (s.pc + BitVec.ofNat 32 (2 * k)) .w).setWidth 16 = (encode i)[k])

theorem witness_StepRunsDecodedInstruction : ready (code [0x0682, 0x0000, 0x0001] s0) (.addi 1 2) = true ∧
    ready (code [0x4E71] { s0 with pc := 0xFFFFFFFE }) .nop = true ∧
    ready (code [0x4E73] s0) .rte = true := by decide +kernel

/-- The hypotheses that an opcode word at the PC is fetched. -/
def fetches (s : State) (w : Word) : Bool :=
  s.fault == none && s.refused == none && s.runState == .running && !s.interruptDue && !s.pc.getLsbD 0 &&
    s.plainAt s.pc 2 && (s.peek s.pc .w).setWidth 16 == w

theorem witness_UnmatchedWord :
    ([0xA000, 0xF000, 0x4E70, 0x50F9].all fun w => fetches (code [w] s0) w && lookup s0.cfg.isa w == .unmatched) = true ∧
    (fetches (code [0x60FF] { s0 with cfg := cfgA }) 0x60FF = true ∧ lookup cfgA.isa 0x60FF = .unmatched) := by
  decide +kernel

/-- The hypotheses that the words of a definition are fetched, the opcode word among them. -/
def fetchesRow (s : State) (w : Word) (rest : List Word) (op : Op) : Bool :=
  fetches s w && decide (selectOp s.cfg.isa w rest = .ok op) && s.mayRun op &&
    rest.length == op.row.form.extWords + op.row.eaWords w &&
    decide (∀ (k : Nat) (h : k < rest.length), s.plainAt (s.pc + BitVec.ofNat 32 (2 * (k + 1))) 2 = true ∧
      (s.peek (s.pc + BitVec.ofNat 32 (2 * (k + 1))) .w).setWidth 16 = rest[k])

/-- Brief extension words with W/L 0, with a scale of 8 and in the full format: of a source, of a MOVE's
destination, and PC-relative. -/
theorem witness_UnmatchedWord_brief :
    fetchesRow (code [0x2030, 0x0000] s0) 0x2030 [0x0000] .moveL = true ∧
    fetchesRow (code [0x2180, 0x0E00] s0) 0x2180 [0x0E00] .moveL = true ∧
    fetchesRow (code [0x41FB, 0x0900] s0) 0x41FB [0x0900] .lea = true := by decide +kernel

/-- The lowest and the highest reserved bit of each group, and words with none. -/
theorem witness_UnmatchedWord_reserved :
    ([(0x4C00, 0x0001), (0x4C00, 0x8000), (0x4C00, 0x7800), (0x4C41, 0x0008), (0x4C41, 0x8000), (0x4C41, 0x7807)].all
      fun (p : Word × Word) => let s := code [p.1, p.2] s0
        fetches s p.1 && s.plainAt (s.pc + 2) 2 && (s.peek (s.pc + 2) .w).setWidth 16 == p.2) = true ∧
    lookup s0.cfg.isa 0x4C00 = .group [.muluL, .mulsL] ∧
    lookup s0.cfg.isa 0x4C41 = .group [.divuL, .divsL, .remuL, .remsL] := by decide +kernel

theorem witness_PrivilegeViolation :
    (fetches (code [0x46FC] user) 0x46FC = true ∧ lookup user.cfg.isa 0x46FC = .found .moveToSr ∧
      Op.moveToSr.row.privileged = true ∧ user.supervisor = false) ∧
    (fetches (code [0x4AC8] user) 0x4AC8 = true ∧ lookup user.cfg.isa 0x4AC8 = .found .halt ∧
      Op.halt.row.privileged = true ∧ user.cfg.userHalt = false) ∧
    Instr.row .rte = Op.rte.row ∧ Op.rte.row.privileged = true := by decide +kernel

/-- An odd PC at the end of the address space, on a handler's first fetch or not. -/
def sOdd (first : Bool) : State := { s0 with pc := 0xFFFFFFFF, afterException := first }

theorem witness_OddProgramCounter : ∀ first ∈ [true, false], (sOdd first).fault = none ∧
    (sOdd first).refused = none ∧ (sOdd first).runState = .running ∧ (sOdd first).interruptDue = false ∧
    (sOdd first).pc.getLsbD 0 = true ∧ (sOdd first).afterException = first := by decide

/-- A stopped context with a request one above its mask. -/
def sAbove : State := { s0 with sr := 0x2600, ipl := [7], iplPrev := 7, runState := .stopped }

/-- A running context with level 7 rising at mask 7. -/
def sEdge : State := { s0 with ipl := [7], iplPrev := 6 }

theorem witness_InterruptIsTaken :
    (sAbove.fault = none ∧ sAbove.refused = none ∧ sAbove.runState ≠ .halted ∧
      sAbove.intMask.toNat < sAbove.level.toNat) ∧
    (sEdge.fault = none ∧ sEdge.refused = none ∧ sEdge.runState ≠ .halted ∧ sEdge.level = 7 ∧
      sEdge.iplPrev ≠ 7) := by decide

theorem witness_TraceAfterInstruction :
    (s0.afterException = false ∧ s0.runState ≠ .halted) ∧
    ({ s0 with afterException := true } : State).afterException = true ∧
    ({ s0 with runState := .halted } : State).runState = .halted := by decide

/-- The addresses of the two frame words and of the vector of an entry. -/
def entryAddrs (s : State) (vec : BitVec 8) (level : Option (BitVec 3)) : Long × Long × Long :=
  let sp := State.a { s with sr := entrySr s.sr level } 7 &&& 0xFFFFFFFC
  (sp - 4, sp - 8, s.vbr + 4 * vec.setWidth 32)

/-- Whether the three long words of an entry are mapped, in the order they are accessed. -/
def entryMapped (s : State) (vec : BitVec 8) (level : Option (BitVec 3)) : List Bool :=
  let p := entryAddrs s vec level
  [s.mappedAt p.1 4, s.mappedAt p.2.1 4, s.mappedAt p.2.2 4]

/-- Whether they are plain memory. -/
def entryPlain (s : State) (vec : BitVec 8) (level : Option (BitVec 3)) : Bool :=
  let p := entryAddrs s vec level
  s.plainAt p.1 4 && s.plainAt p.2.1 4 && s.plainAt p.2.2 4

theorem witness_ExceptionEntry : entryMapped { sU with ssp := 0x70 } 4 none = [false, false, true] ∧
    entryMapped { sU with ssp := 0x74 } 4 none = [true, false, true] ∧
    entryMapped sU 25 none = [true, true, false] ∧ sMis.mem.wf = true ∧
    ∀ level ∈ [none, some 0, some 7], entryPlain sMis 255 level = true := by decide +kernel

/-- The formats at both ends of the ranges of RTE. -/
theorem witness_ReturnFromException : ([(4 : Long), 7].map framed).all (fun s =>
    s.supervisor && s.mappedAt (s.a 7) 4 && s.mappedAt (s.a 7 + 4) 4) = true ∧
    ((framed 4).access .read 0x4000 .l).1.extractLsb' 28 4 = 4 ∧
    ((framed 7).access .read 0x4000 .l).1.extractLsb' 28 4 = 7 ∧ (framed 4).a 7 = 0x4000 := by decide +kernel

theorem witness_FormatError : ([(3 : Long), 8].map framed).all (fun s =>
    s.supervisor && s.plainAt (s.a 7) 4 && s.plainAt (s.a 7 + 4) 4) = true ∧
    ((framed 3).access .read 0x4000 .l).1.extractLsb' 28 4 = 3 ∧
    ((framed 8).access .read 0x4000 .l).1.extractLsb' 28 4 = 8 := by decide +kernel

theorem witness_EntryThenReturn : sMis.mem.wf = true ∧ sMis.sr &&& ~~~srMask = 0 ∧
    entryPlain sMis 33 none = true ∧
    gives (sMis.enter 33 0x1002 none) (fun t => gives (exec .rte t) fun u => u.ssp == 0x4003) = true := by
  decide +kernel

theorem witness_SupervisorOnlyByException : user.supervisor = false ∧
    gives (step (code [0x4E41] user)) (fun t => t.supervisor) = true := by decide +kernel

/-- A storing, a register-only, a stack and a control-register instruction run without an exception. -/
theorem witness_frames : ∀ i ∈ [Instr.moveL (.postInc 0) (.preDec 1), .addx 1 0, .bsrB 2, .movec (.d 0) 0x801,
      .movemToRegs (.ind 0) 0xFFFF, .bsetImm 9 (.ind 0)],
    s0.afterException = false ∧ gives (exec i s0) (fun t => !t.afterException) = true := by decide +kernel

theorem witness_FlagFrame : keepsFlags .lea = true ∧ writesZOnly .btstReg = true ∧ writesX .moveL = false ∧
    ∀ i ∈ [Instr.lea (.ind 0) 1, .btstReg 0 (.dn 1), .moveL (.dn 0) (.dn 1), .addq 0 (.an 7), .subq 0 (.an 7)],
      gives (exec i s0) (fun _ => true) = true := by decide +kernel

/-- Operands in registers, in memory at the end of the address space, and immediate, at each size. -/
theorem witness_source_operands : ∀ sz ∈ [Size.b, .w, .l],
    ∀ e ∈ [Ea.dn 0, .an 7, .preDec 0, .absW 0xFFFF, .absL 0xFFFFFFFD, .immL 0xFFFFFFFF],
      s0.reaches sz e = true := by decide +kernel

/-- Destinations: register and memory, after a source of an auto mode (MOVE, MOV3Q, CLR, ADD, the bit
instructions, TAS). -/
theorem witness_destinations : ∀ sz ∈ [Size.b, .w, .l], ∀ e ∈ [Ea.dn 7, .an 7, .postInc 7, .absL 0xFFFFFFFF],
    Ea.isPlace e = true ∧ (s0.source sz (.postInc 7)).2.reaches sz e = true ∧ s0.reaches sz e = true := by
  decide +kernel

theorem witness_destination_is_no_register :
    (∀ m : RegNo, Ea.ind 0 ≠ .an m) ∧ (∀ r : RegNo, Ea.ind 0 ≠ .dn r) ∧ Ea.isPlace (.ind 0) = true ∧
      s0.reaches .l (.ind 0) = true ∧ s0.reaches .b (.ind 0) = true := by decide +kernel

theorem witness_Movem : ∀ i < 16, (0x8001 : Word).getLsbD i = true →
    s0.mappedAt (0xFFFFFFFC + BitVec.ofNat 32 (4 * ((List.range i).filter fun j => (0x8001 : Word).getLsbD j).length))
      4 = true ∧
    s0.ioAt (0xFFFFFFFC + BitVec.ofNat 32 (4 * ((List.range i).filter fun j => (0x8001 : Word).getLsbD j).length))
      4 = false := by decide +kernel

theorem witness_AddressInstructions : (∀ e ∈ [Ea.ind 7, .disp 0 0x8000, .absW 0x8000, .pcDisp 0x7FFF],
    ModeSet.has .control e.mode = true) ∧ s0.mappedAt (s0.a 7 - 4) 4 = true := by decide +kernel

theorem witness_LinkAndUnlink : (6 : RegNo) ≠ 7 ∧ s0.mappedAt (s0.a 7 - 4) 4 = true ∧ s0.mappedAt (s0.a 6) 4 = true := by
  decide +kernel

/-- Quotients at the ends of the word ranges: 65535 and 65536; 32767, -32768, 32768, -32769, by the divisor 1. -/
theorem witness_Quotients : s0.reaches .w (.immW 1) = true ∧ (s0.source .w (.immW 1)).1 = 1 ∧
    [(0xFFFF : Long), 0x10000].map (fun d => ((s0.setD 0 d).d 0).toNat / (1 : Long).toNat) = [65535, 65536] ∧
    [(0x7FFF : Long), 0xFFFF8000, 0x8000, 0xFFFF7FFF].map (fun d => ((s0.setD 0 d).d 0).toInt.tdiv (1 : Long).toInt) =
      [32767, -32768, 32768, -32769] := by decide +kernel

/-- -2^31 by -1, and its neighbours. -/
theorem witness_signed_overflow : s0.reaches .l (.immL 0xFFFFFFFF) = true ∧
    (s0.source .l (.immL 0xFFFFFFFF)).1 = 0xFFFFFFFF ∧ (s0.setD 0 0x80000000).d 0 = 0x80000000 ∧
    ¬((s0.setD 0 0x80000001).d 0 = 0x80000000 ∧ (s0.source .l (.immL 0xFFFFFFFF)).1 = 0xFFFFFFFF) := by decide +kernel

theorem witness_DivideByZero : ∀ i ∈ [Instr.divuW (.postInc 7) 0, .divsW (.postInc 7) 0, .divuL (.postInc 7) 0,
      .divsL (.postInc 7) 0, .remuL (.postInc 7) 1 0, .remsL (.postInc 7) 1 0],
    s0.reaches i.row.eaSize (.postInc 7) = true ∧ (s0.source i.row.eaSize (.postInc 7)).1 = 0 ∧
      7 ∉ Ea.autoRegs (.dn 1) ∧ 7 ∈ Ea.autoRegs (.postInc 7) := by decide +kernel

theorem witness_BranchesAndReturns : s0.mappedAt (s0.a 7 - 4) 4 = true ∧ s0.mappedAt (s0.a 7) 4 = true := by
  decide +kernel

theorem witness_TrapsEnterHandlers : s0.canEnter (.trap 0) = true ∧ s0.canEnter (.trap 15) = true ∧
    s0.canEnter .illegalInstruction = true := by decide +kernel

theorem witness_StatusMoves : s0.supervisor = true ∧ s0.cfg.dualStack = true ∧ sOne.supervisor = true ∧
    sOne.cfg.dualStack = false ∧ s0.reaches .w (.immW 0xFFFF) = true := by decide +kernel

theorem witness_ControlRegistersStopAndHalt : s0.supervisor = true ∧ ctrlWf s0.ctrl = true ∧
    ([0x800, 0x801, 0x002, 0xC0F].all fun code => decide (code ∈ s0.cfg.controlRegs)) = true ∧
    ([0x000, 0x003, 0xFFF].all fun code => decide (code ∉ s0.cfg.controlRegs)) = true ∧
    ({ user with cfg := { Config.default with userHalt := true } } : State).cfg.userHalt = true ∧
    s0.cfg.dualStack = true := by decide +kernel

theorem witness_NotSimulatedIsRefused : s0.supervisor = true := by decide

end Sys2Proof.Tests
end

section
/-! PROOFS. The status register, the flag setters and the conditions (10_state.md R38 to R54): what each writer of
SR stores, what each flag of a setter is, and the table of conditions. -/

namespace Sys2Proof.Machine

/-! ### The reserved bits of SR (10 R39) -/

/-- The bits that exist, by their numbers. -/
theorem srMask_getLsbD : ∀ i < 16,
    srMask.getLsbD i = (i == 15 || i == 13 || i == 12 || (8 ≤ i && i ≤ 10) || i ≤ 4) := by decide

/-- The reserved bits of a word are 0 when every bit set in it exists. -/
theorem reserved_zero_iff (w : Word) :
    w &&& ~~~srMask = 0 ↔ ∀ i < 16, w.getLsbD i = true → srMask.getLsbD i = true := by
  constructor
  · intro h i hi hw
    have hbit := congrArg (fun u : Word => u.getLsbD i) h
    simpa [hi, hw] using hbit
  · intro h
    apply BitVec.eq_of_getLsbD_eq
    intro i hi
    cases hw : w.getLsbD i with
    | false => simp [hw]
    | true => simp [hw, hi, h i hi hw]

/-- Words with reserved bits 0 may be merged. -/
theorem reserved_zero_or {v w : Word} (hv : v &&& ~~~srMask = 0) (hw : w &&& ~~~srMask = 0) :
    (v ||| w) &&& ~~~srMask = 0 := by
  rw [reserved_zero_iff] at hv hw ⊢
  intro i hi hbit
  rw [BitVec.getLsbD_or, Bool.or_eq_true] at hbit
  exact hbit.elim (hv i hi) (hw i hi)

/-- Clearing bits sets no reserved one. -/
theorem reserved_zero_and {v : Word} (hv : v &&& ~~~srMask = 0) (w : Word) : (v &&& w) &&& ~~~srMask = 0 := by
  rw [reserved_zero_iff] at hv ⊢
  intro i hi hbit
  rw [BitVec.getLsbD_and, Bool.and_eq_true] at hbit
  exact hv i hi hbit.1

/-- An interrupt level lies in SR.I, which exists. -/
theorem reserved_zero_level (level : BitVec 3) : (level.setWidth 16 <<< 8 : Word) &&& ~~~srMask = 0 := by
  revert level; decide

/-- Exception entry sets and clears bits that exist (60 R434). -/
theorem entrySr_reserved {old : Word} (h : old &&& ~~~srMask = 0) (level : Option (BitVec 3)) :
    entrySr old level &&& ~~~srMask = 0 := by
  have hs : (old ||| 0x2000) &&& ~~~srMask = 0 := reserved_zero_or h (by decide)
  cases level with
  | none => exact reserved_zero_and hs _
  | some level => exact reserved_zero_or (reserved_zero_and hs _) (reserved_zero_level level)

/-- A write of the condition codes keeps the bits above 4, and those below exist (10 R40). -/
theorem State.setCcr_reserved {s : State} (h : s.sr &&& ~~~srMask = 0) (f : Ccr) :
    (s.setCcr f).sr &&& ~~~srMask = 0 := by
  rw [reserved_zero_iff] at h ⊢
  intro i hi hbit
  by_cases hlow : i < 5
  · simp [srMask_getLsbD i hi, Nat.le_of_lt_succ hlow]
  · apply h i hi
    rw [State.setCcr_sr, BitVec.getLsbD_append, if_neg hlow, BitVec.getLsbD_extractLsb'] at hbit
    have hi5 : 5 + (i - 5) = i := by omega
    rw [hi5] at hbit
    exact (Bool.and_eq_true_iff.mp hbit).2

@[simp] theorem State.setSr_sr (s : State) (v : Word) : (s.setSr v).sr = v &&& srMask := rfl

/-! ### The instructions that read or write SR (46 R391, R392, R398, R399) -/

theorem exec_moveFromSr (x : RegNo) (s : State) :
    exec (.moveFromSr x) s = s.privileged (s.writeD x .w (s.special .sr)).commit := by rfl

theorem exec_moveToSr (ea : Ea) (s : State) :
    exec (.moveToSr ea) s = s.privileged (s.withSource .w ea fun v s1 => (s1.setSpecial v .sr).commit) := by rfl

theorem exec_stop (imm : Word) (s : State) :
    exec (.stop imm) s = s.privileged { s.setSr imm with runState := .stopped }.commit := by rfl

theorem exec_rte (s : State) : exec .rte s = s.privileged s.returnFromException := by rfl

/-- An immediate word is read as it stands, with no change of the state (20 R102). -/
theorem State.source_immW (s : State) (v : Word) : s.source .w (.immW v) = (v.setWidth 32, s) := by
  have hv : zext16 (v.setWidth 32) = v.setWidth 32 := by simp [zext16]
  exact Prod.ext hv rfl

/-- A merge at a size takes the low bits from the new value (10 R33). -/
theorem Size.extractLsb'_insert (sz : Size) (old v : Long) :
    (sz.insert old v).extractLsb' 0 sz.bits = v.extractLsb' 0 sz.bits := by
  cases sz with
  | b => exact BitVec.extractLsb'_append_eq_right
  | w => exact BitVec.extractLsb'_append_eq_right
  | l => rfl

/-- In supervisor mode MOVE to SR stores its immediate through the mask (46 R392). -/
theorem exec_moveToSr_immW {s : State} (h : s.supervisor = true) (v : Word) :
    exec (.moveToSr (.immW v)) s = .next (s.setSr v).done := by
  rw [exec_moveToSr, State.privileged_supervisor h, State.withSource_reaches _ rfl, State.source_immW]
  simp [State.commit_eq]

/-- In supervisor mode STOP stores its immediate through the mask and stops (46 R399). -/
theorem exec_stop_supervisor {s : State} (h : s.supervisor = true) (v : Word) :
    exec (.stop v) s = .next (State.done { s.setSr v with runState := .stopped }) := by
  rw [exec_stop, State.privileged_supervisor h, State.commit_eq]

/-- In supervisor mode MOVE from SR puts SR into the low word of the register (46 R391). -/
theorem exec_moveFromSr_supervisor {s : State} (h : s.supervisor = true) (x : RegNo) :
    exec (.moveFromSr x) s = .next (s.writeD x .w (s.sr.setWidth 32)).done := by
  rw [exec_moveFromSr, State.privileged_supervisor h, State.commit_eq, State.special_sr]

/-- The low word of a data register after a word write of SR is SR. -/
theorem State.writeD_sr_low (s : State) (x : RegNo) :
    ((s.writeD x .w (s.sr.setWidth 32)).d x).extractLsb' 0 16 = s.sr := by
  rw [State.d_writeD, if_pos rfl]
  have hlow : (s.sr.setWidth 32).extractLsb' 0 16 = s.sr := by
    rw [← BitVec.setWidth_eq_extractLsb' (by decide), BitVec.setWidth_setWidth_of_le _ (by decide),
      BitVec.setWidth_eq]
  exact (Size.extractLsb'_insert .w _ _).trans hlow

/-! ### Exceptions and their return -/

/-- Taking an exception leaves the mark of one (10 R43, 60 R449). -/
theorem State.enter_afterException {s t : State} {vec : BitVec 8} {pc : Long} {level : Option (BitVec 3)}
    (h : s.enter vec pc level = .next t) : t.afterException = true := by
  obtain ⟨-, -, -, rfl⟩ := State.enter_next h
  exact State.access_afterException ..

theorem State.raise_afterException {s t : State} {k : ExcKind} (h : s.raise k = .next t) :
    t.afterException = true := State.enter_afterException h

/-- What a return from an exception can do (46 R398): both long words of the frame are mapped and read; with a good
format SR, PC and the stack pointer are restored from them, with another a format error is raised. -/
theorem State.returnFromException_next {s t : State} (h : s.returnFromException = .next t) :
    let p := s.access .read (s.a 7) .l
    let q := p.2.access .read (s.a 7 + 4) .l
    s.mappedAt (s.a 7) 4 = true ∧ s.mappedAt (s.a 7 + 4) 4 = true ∧
      ((frameFormatOk p.1 = true ∧
          t = ((q.2.setA 7 (s.a 7 + 8 + (p.1.extractLsb' 28 2).setWidth 32)).setSr
            (p.1.extractLsb' 0 16)).atPc q.1) ∨
        (frameFormatOk p.1 = false ∧ q.2.raise .formatError = .next t)) := by
  intro p q
  obtain ⟨f, s1, hf, h⟩ := withValue_next h
  obtain ⟨hmap, hp⟩ := State.load_ok hf
  obtain ⟨newPc, s2, hpc, h⟩ := withValue_next h
  obtain ⟨hmap', hq⟩ := State.load_ok hpc
  obtain ⟨rfl, rfl⟩ : f = p.1 ∧ s1 = p.2 := Prod.mk.inj hp
  obtain ⟨rfl, rfl⟩ : newPc = q.1 ∧ s2 = q.2 := Prod.mk.inj hq
  refine ⟨hmap, ?_, ?_⟩
  · unfold State.mappedAt at hmap' ⊢
    rwa [State.access_cfg] at hmap'
  · split at h
    next hok => exact .inl ⟨hok, State.goto_next h⟩
    next hbad => exact .inr ⟨Bool.eq_false_iff.mpr hbad, h⟩

/-- An RTE that raises nothing stores a word of the frame through the mask (46 R398, 10 R39). -/
theorem exec_rte_sr {s t : State} (h : exec .rte s = .next t) (hnone : t.afterException = false) :
    ∃ w : Word, t.sr = w &&& srMask := by
  have not_raised : ∀ (u : State) (k : ExcKind), u.raise k ≠ .next t := fun u k hr => by
    simp [State.raise_afterException hr] at hnone
  rw [exec_rte] at h
  obtain ⟨-, h⟩ | ⟨-, h⟩ := State.privileged_next h
  · obtain ⟨-, -, ⟨-, rfl⟩ | ⟨-, h⟩⟩ := State.returnFromException_next h
    · exact ⟨_, rfl⟩
    · exact absurd h (not_raised _ _)
  · exact absurd h (not_raised _ _)

/-- Settles O6: each writer of SR by its own lemma, the masked ones through `State.setSr` and the others by what they
do to the reserved bits. -/
theorem statusRegisterMask : Obligations.StatusRegisterMask := by
  intro s v
  refine ⟨rfl, fun i hi => ?_, fun hs => ?_, fun hs => ?_, fun t _ h hnone => exec_rte_sr h hnone,
    fun level h => entrySr_reserved h level, fun f h => State.setCcr_reserved h f, fun hs x => ?_⟩
  · rw [← srMask_getLsbD i hi]
    exact BitVec.getLsbD_and
  · exact ⟨_, exec_moveToSr_immW hs v, rfl⟩
  · exact ⟨_, exec_stop_supervisor hs v, rfl⟩
  · exact ⟨_, exec_moveFromSr_supervisor hs x, State.writeD_sr_low s x⟩

/-! ### The flag setters (10 R47 to R53) -/

/-- The Z of an extend-chained result is conjunctive, that of another is plain (10 R51). -/
theorem chainedZero_iff (chained oldZ : Bool) (r : Long) :
    ((!chained || oldZ) && r == 0) = true ↔ r = 0 ∧ (chained = true → oldZ = true) := by
  cases chained <;> simp [and_comm]

theorem addFlags_z_iff (sz : Size) (a b r : Long) (chained : Bool) (old : Ccr) :
    (addFlags sz a b r chained old).z = true ↔ sz.trunc r = 0 ∧ (chained = true → old.z = true) :=
  chainedZero_iff chained old.z (sz.trunc r)

theorem subFlags_z_iff (sz : Size) (d s r : Long) (chained : Bool) (old : Ccr) :
    (subFlags sz d s r chained old).z = true ↔ sz.trunc r = 0 ∧ (chained = true → old.z = true) :=
  chainedZero_iff chained old.z (sz.trunc r)

theorem logicFlags_z_iff (sz : Size) (r : Long) (old : Ccr) :
    (logicFlags sz r old).z = true ↔ sz.trunc r = 0 := beq_iff_eq

/-- Settles O7: Z by its lemma for each setter, every other flag as the setter defines it. -/
theorem flagSetters : Obligations.FlagSetters := by
  intro sz a b d s r z ext old
  have add_z := addFlags_z_iff sz a b r ext old
  have sub_z := subFlags_z_iff sz d s r ext old
  have logic_z := logicFlags_z_iff sz r old
  exact ⟨rfl, rfl, rfl, rfl, add_z, rfl, rfl, rfl, rfl, sub_z, rfl, rfl, logic_z, rfl, rfl, rfl, rfl⟩

/-! ### The conditions (10 R54) -/

/-- Every 4-bit code is the code of the condition it names. -/
theorem Cond.code_ofCode (c : BitVec 4) : (Cond.ofCode c).code = c := by
  revert c; decide

/-- The conditions in the order of the table have the codes 0 to 15. -/
theorem allConds_code : allConds.map Cond.code = [0, 1, 2, 3, 4, 5, 6, 7, 8, 9, 10, 11, 12, 13, 14, 15] := rfl

/-- Settles O9: the table is the definition of `Ccr.holds` row by row, the codes by the two lemmas above. -/
theorem conditionTable : Obligations.ConditionTable :=
  ⟨fun _ => ⟨rfl, rfl, rfl, rfl, rfl, rfl, rfl, rfl, rfl, rfl, rfl, rfl, rfl, rfl, rfl, rfl⟩, Cond.code_ofCode,
    allConds_code⟩

end Sys2Proof.Machine
end

section
/-! PROOFS. Stores to plain memory (20_memory.md R81, R82): the bytes a store puts, most significant first, and what a
read of them at its own or a smaller size gives. -/

namespace Sys2Proof.Machine

/-! ### Big-endian bytes and their value (20 R81) -/

/-- Truncation keeps the bits below the size (00 R9). -/
theorem Size.trunc_getLsbD (sz : Size) (v : Long) (i : Nat) :
    (sz.trunc v).getLsbD i = (decide (i < sz.bits) && v.getLsbD i) := by
  cases sz with
  | b | w => simp only [Size.trunc, zext8, zext16, Size.bits, Size.bytes, BitVec.getLsbD_setWidth]; grind
  | l =>
    by_cases hi : i < 32
    · simp [Size.trunc, Size.bits, Size.bytes, hi]
    · simp [Size.trunc, BitVec.getLsbD_of_ge v i (by omega)]

/-- A truncated value has no bit at or above its size. -/
theorem Size.trunc_ushiftRight_bits (sz : Size) (v : Long) : sz.trunc v >>> sz.bits = 0 := by
  apply BitVec.eq_of_getLsbD_eq
  intro i _
  simp [Size.trunc_getLsbD]

/-- The byte at place `k` is that of the truncated value. -/
theorem Size.byteAt_trunc (sz : Size) (v : Long) {k : Nat} (hk : k < sz.bytes) :
    sz.byteAt v k = (sz.trunc v).extractLsb' (8 * (sz.bytes - 1 - k)) 8 := by
  apply BitVec.eq_of_getLsbD_eq
  intro i hi
  have hbits : 8 * (sz.bytes - 1 - k) + i < sz.bits := by unfold Size.bits; omega
  simp [Size.byteAt, Size.trunc_getLsbD, hbits]

/-- The byte at bit `k`, put below the bits above it, gives the bits from `k` on. -/
theorem ushiftRight_append_byte (v : Long) (k : Nat) :
    (v >>> (k + 8)) <<< 8 ||| (v.extractLsb' k 8).setWidth 32 = v >>> k := by
  apply BitVec.eq_of_getLsbD_eq
  intro i hi
  by_cases hlow : i < 8
  · simp [hi, hlow]
  · have hplace : k + 8 + (i - 8) = k + i := by omega
    simp [hi, hlow, hplace]

theorem joinBytes_concat (bs : List Byte) (b : Byte) :
    joinBytes (bs ++ [b]) = joinBytes bs <<< 8 ||| b.setWidth 32 := by simp [joinBytes]

/-- The first `m` bytes of a value are its bits above the bytes that are left. -/
theorem joinBytes_first_bytes (sz : Size) (v : Long) {m : Nat} (hm : m ≤ sz.bytes) :
    joinBytes ((List.range m).map (sz.byteAt v)) = sz.trunc v >>> (8 * (sz.bytes - m)) := by
  induction m with
  | zero => exact (Size.trunc_ushiftRight_bits sz v).symm
  | succ m ih =>
    have hplace : 8 * (sz.bytes - 1 - m) = 8 * (sz.bytes - (m + 1)) := by omega
    have hshift : 8 * (sz.bytes - m) = 8 * (sz.bytes - (m + 1)) + 8 := by omega
    rw [List.range_succ, List.map_append, List.map_singleton, joinBytes_concat, ih (Nat.le_of_succ_le hm),
      Size.byteAt_trunc sz v hm, hplace, hshift, ushiftRight_append_byte]

/-- The big-endian bytes of a value are those of its truncation (20 R81). -/
theorem joinBytes_byteAt (sz : Size) (v : Long) :
    joinBytes ((List.range sz.bytes).map (sz.byteAt v)) = sz.trunc v := by
  simpa using joinBytes_first_bytes sz v (Nat.le_refl _)

/-- A read of memory whose bytes are those of `u` gives `u` at the size. -/
theorem State.peek_eq_trunc {s : State} {a : Long} {sz : Size} {u : Long}
    (h : ∀ k < sz.bytes, s.byteAt (a + BitVec.ofNat 32 k).toNat = sz.byteAt u k) : s.peek a sz = sz.trunc u := by
  rw [← joinBytes_byteAt sz u, State.peek, spanAddrs, List.map_map]
  congr 1
  exact List.map_congr_left fun k hk => h k (List.mem_range.mp hk)

/-! ### A store to plain memory (20 R82) -/

theorem State.plainAt_iff (s : State) (a : Long) (n : Nat) :
    s.plainAt a n = true ↔ s.mappedAt a n = true ∧ s.ioAt a n = false := by simp [State.plainAt]

theorem State.store_plain {s : State} {a : Long} {sz : Size} (v : Long) (h : s.plainAt a sz.bytes = true) :
    s.store a sz v = .ok (s.poke a sz v) := by
  obtain ⟨hmap, hio⟩ := (State.plainAt_iff s a sz.bytes).mp h
  rw [State.store_mapped v hmap, State.deposit_plain v hio]

theorem Size.bytes_le_four (sz : Size) : sz.bytes ≤ 4 := by cases sz <;> decide

/-- The byte at place `k` of the stored value is `k` above the address. -/
theorem State.poke_byteAt_span {s : State} (hs : s.mem.wf = true) (a : Long) (sz : Size) (v : Long) {k : Nat}
    (hk : k < sz.bytes) : (s.poke a sz v).byteAt (a + BitVec.ofNat 32 k).toNat = sz.byteAt v k := by
  have hput := pokeBytes_get_of_mem hs (as := spanAddrs a sz.bytes)
    (vs := (List.range sz.bytes).map (sz.byteAt v)) (fun _ hb => spanAddrs_lt hb)
    (spanAddrs_nodup a (Size.bytes_le_four sz)) (by simp) k (by simpa using hk)
  simpa [spanAddrs, State.byteAt, State.poke] using hput

/-- A stored value reads back at its size. -/
theorem State.peek_poke {s : State} (hs : s.mem.wf = true) (a : Long) (sz : Size) (v : Long) :
    (s.poke a sz v).peek a sz = sz.trunc v :=
  State.peek_eq_trunc fun _ hk => State.poke_byteAt_span hs a sz v hk

/-- The first two bytes of a long word are those of its high word. -/
theorem Size.byteAt_high_word (v : Long) {k : Nat} (hk : k < 2) :
    Size.l.byteAt v k = Size.w.byteAt ((v.extractLsb' 16 16).setWidth 32) k := by
  apply BitVec.eq_of_getLsbD_eq
  intro i hi
  have hin : 8 * (1 - k) + i < 16 := by omega
  have hin' : 8 * (1 - k) + i < 32 := by omega
  have hplace : 8 * (3 - k) + i = 16 + (8 * (1 - k) + i) := by omega
  simp [Size.byteAt, Size.bytes, hi, hin, hin', hplace]

/-- A stored long word reads at its address as its high word. -/
theorem State.peek_word_poke_long {s : State} (hs : s.mem.wf = true) (a v : Long) :
    (s.poke a .l v).peek a .w = (v.extractLsb' 16 16).setWidth 32 := by
  have hread : (s.poke a .l v).peek a .w = Size.w.trunc ((v.extractLsb' 16 16).setWidth 32) :=
    State.peek_eq_trunc fun k hk => by
      rw [← Size.byteAt_high_word v hk]
      exact State.poke_byteAt_span hs a .l v (Nat.lt_of_lt_of_le hk (by decide))
  simpa [Size.trunc, zext16] using hread

/-- A stored long word reads three bytes on as its low byte. -/
theorem State.peek_byte_poke_long {s : State} (hs : s.mem.wf = true) (a v : Long) :
    (s.poke a .l v).peek (a + 3) .b = (v.extractLsb' 0 8).setWidth 32 := by
  have hread : (s.poke a .l v).peek (a + 3) .b = Size.b.trunc v :=
    State.peek_eq_trunc fun k hk => by
      obtain rfl : k = 0 := Nat.lt_one_iff.mp hk
      simpa [Size.byteAt, Size.bytes] using State.poke_byteAt_span hs a .l v (k := 3) (by decide)
  simpa [Size.trunc, zext8, BitVec.setWidth_eq_extractLsb'] using hread

/-- Settles O10: the store is a poke, which puts the bytes by `State.poke_byteAt_span`; each read then follows from the
bytes. -/
theorem storeIsBigEndian : Obligations.StoreIsBigEndian := by
  intro s a v sz hs hplain
  refine ⟨s.poke a sz v, State.store_plain v hplain, fun _ hk => State.poke_byteAt_span hs a sz v hk,
    fun _ hk => State.poke_byteAt s a sz v hk, State.peek_poke hs a sz v, ?_, rfl⟩
  rintro rfl
  exact ⟨State.peek_word_poke_long hs a v, State.peek_byte_poke_long hs a v⟩

end Sys2Proof.Machine
end

section
/-! PROOFS. Accesses that touch an unmapped byte (20_memory.md R86; 41_data_movement.md R215): the fault that names the
access, and the state it leaves. -/

namespace Sys2Proof.Machine

/-! ### The fault of an access -/

theorem State.mappedAt_eq_false_iff (s : State) (a : Long) (n : Nat) :
    s.mappedAt a n = false ↔ ∃ j < n, s.cfg.mapped (a + BitVec.ofNat 32 j).toNat = false := by
  simp [State.mappedAt, spanAddrs]

/-- What is mapped depends on the parameters alone. -/
theorem State.mappedAt_congr {s t : State} (h : t.cfg = s.cfg) (a : Long) (n : Nat) :
    t.mappedAt a n = s.mappedAt a n := by
  unfold State.mappedAt; rw [h]

theorem State.load_unmapped {s : State} (k : AccessKind) {a : Long} {sz : Size}
    (h : s.mappedAt a sz.bytes = false) : s.load k a sz = .error (.hit (.unmappedAccess a sz.bytes k) s) :=
  if_neg (Bool.eq_false_iff.mp h)

theorem State.store_unmapped {s : State} {a : Long} {sz : Size} (v : Long)
    (h : s.mappedAt a sz.bytes = false) : s.store a sz v = .error (.hit (.unmappedAccess a sz.bytes .write) s) :=
  if_neg (Bool.eq_false_iff.mp h)

@[simp] theorem withValue_error {α : Type} (e : Fault) (k : α → State → Result) :
    withValue (.error e) k = .fault e := rfl

@[simp] theorem withState_error (e : Fault) (k : State → Result) : withState (.error e) k = .fault e := rfl

/-! ### The opcode fetch (30 R149) -/

/-- A running context with no acceptable interrupt and an even PC runs one instruction. -/
theorem step_eq_runInstr {s : State} (hfault : s.fault = none) (hrefused : s.refused = none)
    (hrun : s.runState = .running) (hint : s.interruptDue = false) (heven : s.pc.getLsbD 0 = false) :
    step s = s.tick.runInstr exec := by
  have hcycle : s.tick.cycle exec = s.tick.runInstr exec := if_neg (Bool.eq_false_iff.mp heven)
  rw [← hcycle]
  simp [step, stepUsing, hfault, hrefused, hrun, hint]

/-- An opcode word that is not mapped is the fetch fault, with the cursor at the PC. -/
theorem State.runInstr_unmapped {s : State} (run : Instr → State → Result) (h : s.mappedAt s.pc 2 = false) :
    s.runInstr run = .fault (.hit (.unmappedAccess s.pc 2 .fetch) { s with cursor := s.pc }) := by
  have hload : State.load { s with cursor := s.pc } .fetch s.pc .w = _ := State.load_unmapped .fetch h
  rw [State.runInstr, hload]
  rfl

/-! ### Writes of an instruction (41 R201, R210) -/

/-- Ending an instruction with a write to an unmapped place is the fault of the write. -/
theorem State.finish_unmapped {s : State} {a : Long} {sz : Size} (v : Long) (f : Ccr)
    (h : s.mappedAt a sz.bytes = false) :
    s.finish (.mem a) sz v f = .fault (.hit (.unmappedAccess a sz.bytes .write) s) := by
  have hwrite : s.writeLoc sz v (.mem a) = _ := State.store_unmapped v h
  rw [State.finish, hwrite, withState_error]

/-- MOVE to an unmapped place faults after the source is read and both auto modes have changed their registers. -/
theorem State.moveData_unmapped {s : State} {sz : Size} {src dst : Ea} {a : Long} (hsrc : s.reaches sz src = true)
    (hdst : (s.source sz src).2.locate sz dst = .mem a)
    (h : (s.source sz src).2.mappedAt a sz.bytes = false) :
    s.moveData sz src dst =
      .fault (.hit (.unmappedAccess a sz.bytes .write) ((s.source sz src).2.autoUpdate sz dst)) := by
  have hauto : ((s.source sz src).2.autoUpdate sz dst).mappedAt a sz.bytes = false := by
    rw [State.mappedAt_congr (State.autoUpdate_cfg ..), h]
  unfold State.moveData
  rw [State.withSource_reaches _ hsrc]
  simp only [State.resolve, if_true, hdst]
  exact State.finish_unmapped _ _ hauto

theorem exec_moveB (src dst : Ea) (s : State) : exec (.moveB src dst) s = s.moveData .b src dst := by rfl

theorem exec_moveW (src dst : Ea) (s : State) : exec (.moveW src dst) s = s.moveData .w src dst := by rfl

theorem exec_moveL (src dst : Ea) (s : State) : exec (.moveL src dst) s = s.moveData .l src dst := by rfl

theorem exec_pea (ea : Ea) (s : State) :
    exec (.pea ea) s = s.withAddress .l ea fun a s1 => withState (s1.push a) State.commit := by rfl

/-- A mode that changes no register resolves without an effect (20 R94, R95). -/
theorem State.autoUpdate_of_autoRegs_nil (s : State) (sz : Size) {e : Ea} (h : Ea.autoRegs e = []) :
    s.autoUpdate sz e = s := by
  cases e with
  | postInc n | preDec n => cases h
  | _ => rfl

/-- A push to an unmapped slot faults with the stack pointer moved (20 R89). -/
theorem State.push_unmapped {s : State} (v : Long) (h : s.mappedAt (s.a 7 - 4) 4 = false) :
    s.push v = .error (.hit (.unmappedAccess (s.a 7 - 4) 4 .write) (s.setA 7 (s.a 7 - 4))) := by
  have hmoved : (s.setA 7 (s.a 7 - 4)).mappedAt (s.a 7 - 4) 4 = false := by
    rw [State.mappedAt_congr (State.setA_cfg ..), h]
  exact State.store_unmapped (sz := .l) v hmoved

/-- Settles O11: each part by the lemma of its access; the state of a fault is the one the access was made in. -/
theorem unmappedAccessFaults : Obligations.UnmappedAccessFaults := by
  refine ⟨fun s a sz k v hj => ?_, fun s hfault hrefused hrun hint heven hpc => ?_,
    fun m hm s src dst a hsrc hdst hmap => ?_, fun s ea a hloc hauto hslot => ?_, fun _ _ _ => rfl, fun _ => rfl⟩
  · have hmap := (State.mappedAt_eq_false_iff s a sz.bytes).mpr hj
    rw [State.load_unmapped k hmap, State.store_unmapped v hmap]
    exact ⟨rfl, rfl, fun _ => rfl, fun _ => rfl⟩
  · refine ⟨{ s.tick with cursor := s.pc }, ?_, rfl⟩
    rw [step_eq_runInstr hfault hrefused hrun hint heven]
    exact State.runInstr_unmapped (s := s.tick) exec hpc
  · have hmove : exec (m.2 src dst) s = s.moveData m.1 src dst := by
      simp only [List.mem_cons, List.not_mem_nil, or_false] at hm
      obtain rfl | rfl | rfl := hm
      · exact exec_moveB src dst s
      · exact exec_moveW src dst s
      · exact exec_moveL src dst s
    rw [hmove]
    exact State.moveData_unmapped hsrc hdst hmap
  · rw [exec_pea, State.withAddress_mem _ hloc, State.autoUpdate_of_autoRegs_nil s .l hauto,
      State.push_unmapped a hslot, withState_error]

end Sys2Proof.Machine
end

section
/-! PROOFS. Addressing modes (20_memory.md R90 to R104): where a mode points, and that the descriptor of an effective
address resolves as the effective address does. -/

namespace Sys2Proof.Machine

/-! ### A descriptor stands for the effective address it was made from (20 R90; 30 R161) -/

/-- A signed value in the range of its field is read back. -/
theorem inRange_toInt {w : Nat} (k : Nat) {lo hi : Int} {v : BitVec w} (hlo : lo ≤ v.toInt) (hhi : v.toInt ≤ hi) :
    inRange k lo hi v.toInt = .ok v := by
  unfold inRange
  rw [if_pos ⟨hlo, hhi⟩, BitVec.ofInt_toInt]

/-- An unsigned value in the range of its field is read back. -/
theorem inRange_toNat {w : Nat} (k : Nat) {lo hi : Int} {v : BitVec w} (hlo : lo ≤ 0) (hhi : (v.toNat : Int) ≤ hi) :
    inRange k lo hi v.toNat = .ok v := by
  unfold inRange
  rw [if_pos ⟨hlo.trans (Int.natCast_nonneg _), hhi⟩, BitVec.ofInt_natCast, BitVec.ofNat_toNat, BitVec.setWidth_eq]

theorem disp16Of_toInt (k : Nat) (d : Word) : disp16Of k d.toInt = .ok d :=
  inRange_toInt k (BitVec.le_toInt d) (Int.le_of_lt_add_one BitVec.toInt_lt)

theorem scaleOf_scaleNumber (k : Nat) (sc : Scale) : scaleOf k (scaleNumber sc) = .ok sc := by cases sc <;> rfl

theorem briefOf_brief (k : Nat) (x : Brief) : briefOf k x.d8.toInt x.xreg (scaleNumber x.scale) = .ok x := by
  have hd : (inRange k (-128) 127 x.d8.toInt : Except EncodeError Byte) = .ok x.d8 :=
    inRange_toInt k (BitVec.le_toInt x.d8) (Int.le_of_lt_add_one BitVec.toInt_lt)
  rw [briefOf, hd, scaleOf_scaleNumber]

/-- The descriptor of an effective address gives that effective address back, at any address of its instruction. -/
theorem Operand.ea_ofEa (addr : Long) (e : Ea) : Operand.ea (.ofEa addr e) = some e := by
  cases e with
  | disp n d | absW d | pcDisp d => simp [Operand.ofEa, Operand.ea, eaOf, disp16Of_toInt, Except.map]
  | index n x | pcIndex x => simp [Operand.ofEa, Operand.ea, eaOf, briefOf_brief, Except.map]
  | immB v | immW v | immL v => simp (disch := omega) [Operand.ofEa, Operand.ea, eaOf, Except.map, inRange_toNat]
  | _ => rfl

/-- A PC-relative descriptor carries the address of the extension word as its base, which no other mode uses. -/
theorem State.locateFrom_base_ofEa (s : State) (addr : Long) (sz : Size) (e : Ea) :
    s.locateFrom (Operand.base (.ofEa addr e)) sz e = s.locateFrom (addr + 2) sz e := by cases e <;> rfl

/-- A descriptor of an effective address of an instruction at `addr` resolves as the effective address does, with the
base of that instruction (20 R91, R100). -/
theorem State.resolveDesc_ofEa (s : State) (effects : Bool) (sz : Size) (addr : Long) (e : Ea) :
    s.resolveDesc effects sz (.ofEa addr e) =
      some (s.locateFrom (addr + 2) sz e, if effects then s.autoUpdate sz e else s) := by
  have hmap : s.resolveDesc effects sz (.ofEa addr e) = (Operand.ea (.ofEa addr e)).map fun e' =>
      (s.locateFrom (Operand.base (.ofEa addr e)) sz e', if effects then s.autoUpdate sz e' else s) := by
    cases e <;> rfl
  rw [hmap, Operand.ea_ofEa, Option.map_some, State.locateFrom_base_ofEa]

/-! ### Where the modes point (20 R92 to R101) -/

theorem Scale.factor_eq_scaleNumber (sc : Scale) : Scale.factor sc = BitVec.ofNat 32 (scaleNumber sc) := by
  cases sc <;> rfl

/-- The index part with the scale as a number (20 R97). -/
theorem State.indexed_eq (s : State) (x : Brief) :
    s.indexed x = x.d8.signExtend 32 + s.reg x.xreg * BitVec.ofNat 32 (scaleNumber x.scale) := by
  rw [State.indexed, Scale.factor_eq_scaleNumber]

/-- Settles O13: the modes by the definition of `State.locate`, the indexed ones through `State.indexed_eq`, and the
descriptors through `State.resolveDesc_ofEa`. -/
theorem effectiveAddresses : Obligations.EffectiveAddresses := by
  intro s sz n d16 a32 x xv step at_
  have hindexed : s.indexed x = x.d8.signExtend 32 + xv := State.indexed_eq s x
  have at_index : at_ (.index n x) (.mem (s.a n + (x.d8.signExtend 32 + xv))) s 1 := by
    rw [← hindexed]; exact ⟨rfl, rfl, rfl⟩
  have at_pcIndex : at_ (.pcIndex x) (.mem (s.pc + 2 + (x.d8.signExtend 32 + xv))) s 1 := by
    rw [← hindexed]; exact ⟨rfl, rfl, rfl⟩
  have desc_elsewhere : ∀ effects addr,
      s.resolveDesc effects sz (.ofEa addr (.pcDisp d16)) = some (.mem (addr + 2 + d16.signExtend 32), s) ∧
        s.resolveDesc effects sz (.ofEa addr (.pcIndex x)) =
          some (.mem (addr + 2 + (x.d8.signExtend 32 + xv)), s) := by
    intro effects addr
    simp [State.resolveDesc_ofEa, State.locateFrom, State.autoUpdate, hindexed]
  exact ⟨⟨rfl, rfl, rfl⟩, ⟨rfl, rfl, rfl⟩, ⟨rfl, rfl, rfl⟩, ⟨rfl, rfl, rfl⟩, ⟨rfl, rfl, rfl⟩, ⟨rfl, rfl, rfl⟩, rfl,
    at_index, ⟨rfl, rfl, rfl⟩, rfl, ⟨rfl, rfl, rfl⟩, rfl, ⟨rfl, rfl, rfl⟩, at_pcIndex,
    fun m v => State.a_setA s n m v, fun effects e => State.resolveDesc_ofEa s effects sz s.pc e, desc_elsewhere,
    fun _ _ => rfl⟩

end Sys2Proof.Machine
end

section
/-! PROOFS. CalcSize against Encode (30_encoding.md R157): the size is read off the words Encode writes. -/

namespace Sys2Proof.Machine

/-- CalcSize adds nothing of its own to Encode: it takes the byte length of the words (30 R157). -/
theorem calcSize_eq_map_assembleWords (c : Config) (name : String) (sz : Option Size) (o1 o2 : Option Operand) :
    calcSize c name sz o1 o2 = (assembleWords c name sz o1 o2).map fun ws => 2 * ws.length := by
  rw [calcSize, assembleWords]
  cases assemble c name sz o1 o2 with
  | error e => rfl
  | ok i => rfl

/-- Settles O20: by cases on the answer of Encode, of which CalcSize is the image. -/
theorem calcSizeIsEncodedLength : Obligations.CalcSizeIsEncodedLength := by
  intro c name sz o1 o2
  rw [calcSize_eq_map_assembleWords]
  cases assembleWords c name sz o1 o2 with
  | error e' => simp [Except.map]
  | ok ws => simp [Except.map]

end Sys2Proof.Machine
end

section
/-! PROOFS. The registry without the divide option (43_mul_div.md R312): the divide rows are not visible, and no other
row of their lines takes one of their words or answers to one of their mnemonics. -/

namespace Sys2Proof.Machine

/-! ### Matching (30 R141 to R146) -/

theorem Row.pat_of_hits {r : Row} {isa : Isa} {w : Word} (h : r.hits isa w = true) : w &&& r.mask = r.pat := by
  simp only [Row.hits, Bool.and_eq_true, beq_iff_eq] at h
  obtain ⟨⟨⟨hpat, _⟩, _⟩, _⟩ := h
  exact hpat

theorem Row.visible_of_hits {r : Row} {isa : Isa} {w : Word} (h : r.hits isa w = true) : r.visible isa = true := by
  simp only [Row.hits, Bool.and_eq_true] at h
  obtain ⟨⟨⟨_, hvis⟩, _⟩, _⟩ := h
  exact hvis

/-- Two rows that match one word agree in the bits both fix. -/
theorem Row.pat_agree_of_hits {r q : Row} {isa isa' : Isa} {w : Word} (hr : r.hits isa w = true)
    (hq : q.hits isa' w = true) : r.pat &&& q.mask = q.pat &&& r.mask := by
  rw [← Row.pat_of_hits hr, ← Row.pat_of_hits hq]
  ac_rfl

theorem mem_candidates_iff {isa : Isa} {w : Word} {op : Op} :
    op ∈ candidates isa w ↔ op ∈ lineOps (w.extractLsb' 12 4).toNat ∧ op.row.hits isa w = true :=
  List.mem_filter

theorem lookup_of_candidates_nil {isa : Isa} {w : Word} (h : candidates isa w = []) : lookup isa w = .unmatched := by
  simp [lookup, h]

/-! ### What the divide option hides (30 R144; 43 R312) -/

/-- Without the option a visible row is no divide row. -/
theorem Row.divide_eq_false_of_visible {r : Row} {isa : Isa} (h : isa.hwDivide = false)
    (hvis : r.visible isa = true) : r.divide = false := by
  simp only [Row.visible, h, Bool.or_false, Bool.and_eq_true, Bool.not_eq_true'] at hvis
  exact hvis.2

theorem Row.visible_eq_false_of_divide {r : Row} {isa : Isa} (h : isa.hwDivide = false) (hr : r.divide = true) :
    r.visible isa = false := by
  simp [Row.visible, hr, h]

/-- A row of tier A that is no divide row is visible whatever the tier and the option. -/
theorem Row.visible_of_tierA {r : Row} (isa : Isa) (htier : r.isa = .a) (hr : r.divide = false) :
    r.visible isa = true := by
  simp [Row.visible, htier, hr, Tier.rank]

/-- Without the option no candidate is a divide row. -/
theorem divide_eq_false_of_mem_candidates {isa : Isa} {w : Word} {op : Op} (h : isa.hwDivide = false)
    (hop : op ∈ candidates isa w) : op.row.divide = false :=
  Row.divide_eq_false_of_visible h (Row.visible_of_hits (mem_candidates_iff.mp hop).2)

theorem divide_of_mem_divideRows :
    ∀ op ∈ [Op.divuW, .divsW, .divuL, .divsL, .remuL, .remsL], op.row.divide = true := by decide

theorem tierA_of_mem_multiplyRows :
    ∀ op ∈ [Op.muluW, .mulsW, .muluL, .mulsL], op.row.isa = .a ∧ op.row.divide = false := by decide

/-! ### The words of the divide rows -/

/-- A divide row and any other row of its line fix a bit that both look at to different values. -/
theorem pat_clash_of_divide : ∀ line : BitVec 4, ∀ op ∈ lineOps line.toNat, op.row.divide = true →
    ∀ o ∈ lineOps line.toNat, o.row.divide = false → op.row.pat &&& o.row.mask ≠ o.row.pat &&& op.row.mask := by
  decide

/-- Without the option the word of a divide row has no candidate: one would be another row of its line, and clash. -/
theorem candidates_nil_of_divide {isa isa' : Isa} {w : Word} {op : Op} (h : isa.hwDivide = false)
    (hop : op.row.divide = true) (hw : op ∈ candidates isa' w) : candidates isa w = [] := by
  obtain ⟨hline, hhits⟩ := mem_candidates_iff.mp hw
  refine List.eq_nil_iff_forall_not_mem.mpr fun o ho => ?_
  obtain ⟨holine, hohits⟩ := mem_candidates_iff.mp ho
  have hdiv := divide_eq_false_of_mem_candidates h ho
  exact pat_clash_of_divide _ op hline hop o holine hdiv (Row.pat_agree_of_hits hhits hohits)

/-! ### The exception of an unmatched word (30 R147, R153) -/

/-- The refused long branches are words of line 6. -/
theorem line_of_tierALongBranch {isa : Isa} {w : Word} (h : tierALongBranch isa w = true) :
    w.extractLsb' 12 4 = 6 := by
  simp only [tierALongBranch, Bool.and_eq_true, beq_iff_eq] at h
  obtain ⟨_, hword⟩ := h
  have hmask : (0xF0FF : Word).extractLsb' 12 4 = BitVec.allOnes 4 := by decide
  calc w.extractLsb' 12 4 = (w &&& 0xF0FF).extractLsb' 12 4 := by
        rw [BitVec.extractLsb'_and, hmask, BitVec.and_allOnes]
    _ = 6 := by rw [hword]; decide

/-- An unmatched word outside lines 6, A and F raises illegal instruction with its own address stacked. -/
theorem State.runWord_illegal {s : State} {w : Word} (run : Instr → State → Result)
    (hlookup : lookup s.cfg.isa w = .unmatched) (h6 : w.extractLsb' 12 4 ≠ 6) (hA : w.extractLsb' 12 4 ≠ 0xA)
    (hF : w.extractLsb' 12 4 ≠ 0xF) : s.runWord run w = s.enter 4 s.pc none := by
  have hbranch : ¬ tierALongBranch s.cfg.isa w = true := fun hb => h6 (line_of_tierALongBranch hb)
  have hkind : unmatchedKind w = .illegalInstruction := by rw [unmatchedKind, if_neg hA, if_neg hF]
  have hraise : s.runWord run w = s.raise (unmatchedKind w) := by
    rw [State.runWord, hlookup]
    simp only [if_neg hbranch, State.reject]
  rw [hraise, hkind]
  rfl

/-- No divide row stands in a line whose unmatched words are anything but illegal. -/
theorem line_of_divide : ∀ line : BitVec 4, ∀ op ∈ lineOps line.toNat, op.row.divide = true →
    line ≠ 6 ∧ line ≠ 0xA ∧ line ≠ 0xF := by
  decide

/-- Without the option the word of a divide row raises illegal instruction. -/
theorem State.runWord_divide {s : State} {isa : Isa} {w : Word} {op : Op} (run : Instr → State → Result)
    (h : s.cfg.isa.hwDivide = false) (hop : op.row.divide = true) (hw : op ∈ candidates isa w) :
    s.runWord run w = s.enter 4 s.pc none := by
  have hlookup := lookup_of_candidates_nil (candidates_nil_of_divide h hop hw)
  obtain ⟨h6, hA, hF⟩ := line_of_divide _ op (mem_candidates_iff.mp hw).1 hop
  exact State.runWord_illegal run hlookup h6 hA hF

/-! ### The divide mnemonics (30 R155) -/

/-- Only divide rows answer to the divide mnemonics. -/
theorem rowConds_divide_mnemonic : ∀ name ∈ ["DIVU", "DIVS", "REMU", "REMS"], ∀ op ∈ registry,
    op.row.divide = false → rowConds op name = [] := by
  decide +kernel

/-- Without the option no visible row answers to a divide mnemonic. -/
theorem candidatesOf_divide_mnemonic {isa : Isa} {name : String} (h : isa.hwDivide = false)
    (hname : name ∈ ["DIVU", "DIVS", "REMU", "REMS"]) : candidatesOf isa name = [] := by
  refine List.flatMap_eq_nil_iff.mpr fun op hop => ?_
  obtain ⟨hreg, hvis⟩ := List.mem_filter.mp hop
  rw [rowConds_divide_mnemonic name hname op hreg (Row.divide_eq_false_of_visible h hvis), List.map_nil]

theorem assemble_of_candidatesOf_nil {cfg : Config} {name : String} (h : candidatesOf cfg.isa name = [])
    (sz : Option Size) (o1 o2 : Option Operand) :
    assemble cfg name sz o1 o2 = .error { operand := none, reason := .unknownMnemonic } := by
  simp [assemble, h]

/-- Settles O18: the first two parts follow from the six rows being divide rows, and the multiply rows are rows of
tier A that need no option. -/
theorem divideOptionOff : Obligations.DivideOptionOff := by
  intro isa h
  refine ⟨fun op hop => ?_, fun name hname c sz o1 o2 hc => ?_, fun op hop => ?_⟩
  · have hdiv := divide_of_mem_divideRows op hop
    refine ⟨Row.visible_eq_false_of_divide h hdiv, fun w hw => ?_, fun w hw => ⟨?_, fun s hs => ?_⟩⟩
    · exact Bool.eq_false_iff.mp (divide_eq_false_of_mem_candidates h hw) hdiv
    · exact lookup_of_candidates_nil (candidates_nil_of_divide h hdiv hw)
    · exact State.runWord_divide exec (hs ▸ h) hdiv hw
  · exact assemble_of_candidatesOf_nil (candidatesOf_divide_mnemonic (hc ▸ h) hname) sz o1 o2
  · obtain ⟨htier, hdiv⟩ := tierA_of_mem_multiplyRows op hop
    exact Row.visible_of_tierA isa htier hdiv

end Sys2Proof.Machine
end

section
/-! PROOFS. Taking an exception (60_exceptions.md R431 to R434): SR after the entry, the two long words of the frame,
the state in which the vector is read, and the faults of the three accesses. -/

namespace Sys2Proof.Machine

/-! ### SR after the entry (60 R434) -/

/-- An interrupt level placed in SR.I fills bits 10:8 and none of bits 4:0. -/
theorem level_shifted_fields (l : BitVec 3) :
    (l.setWidth 16 <<< 8 : Word).extractLsb' 8 3 = l ∧ (l.setWidth 16 <<< 8 : Word).extractLsb' 0 5 = 0 := by
  revert l; decide

theorem entrySr_supervisor (old : Word) (level : Option (BitVec 3)) : (entrySr old level).getLsbD 13 = true := by
  cases level <;> simp [entrySr]

theorem entrySr_tracing (old : Word) (level : Option (BitVec 3)) : (entrySr old level).getLsbD 15 = false := by
  cases level <;> simp [entrySr]

theorem entrySr_ccr (old : Word) (level : Option (BitVec 3)) :
    (entrySr old level).extractLsb' 0 5 = old.extractLsb' 0 5 := by
  cases level with
  | none =>
    simp only [entrySr, BitVec.extractLsb'_and, BitVec.extractLsb'_or]
    simpa using BitVec.and_allOnes (x := old.extractLsb' 0 5)
  | some l =>
    simp only [entrySr, BitVec.extractLsb'_and, BitVec.extractLsb'_or, (level_shifted_fields l).2]
    simpa using BitVec.and_allOnes (x := old.extractLsb' 0 5)

theorem entrySr_none_intMask (old : Word) : (entrySr old none).extractLsb' 8 3 = old.extractLsb' 8 3 := by
  simp only [entrySr, BitVec.extractLsb'_and, BitVec.extractLsb'_or]
  simpa using BitVec.and_allOnes (x := old.extractLsb' 8 3)

theorem entrySr_none_master (old : Word) : (entrySr old none).getLsbD 12 = old.getLsbD 12 := by
  simp [entrySr]

theorem entrySr_some_intMask (old : Word) (l : BitVec 3) : (entrySr old (some l)).extractLsb' 8 3 = l := by
  simp [entrySr, BitVec.extractLsb'_and, BitVec.extractLsb'_or, (level_shifted_fields l).1]

theorem entrySr_some_master (old : Word) (l : BitVec 3) : (entrySr old (some l)).getLsbD 12 = false := by
  simp [entrySr]

/-! ### A7 of the entry (10 R32) -/

/-- With the SR of an entry A7 is not USP. -/
theorem State.onUsp_of_entrySr {s : State} {old : Word} {level : Option (BitVec 3)} (h : s.sr = entrySr old level) :
    s.onUsp = false := by
  simp [State.onUsp, State.supervisor, h, entrySr_supervisor]

theorem State.a_seven_eq_ssp {s : State} (h : s.onUsp = false) : s.a 7 = s.ssp := by
  simp [State.a, h]

theorem State.setA_seven_eq_ssp {s : State} (h : s.onUsp = false) (v : Long) : s.setA 7 v = { s with ssp := v } := by
  simp [State.setA, h]

/-! ### The first long word of the frame (60 R433) -/

/-- FORMAT is 4 with the misalignment added; FS is 0, and VECTOR and SR are in their places. -/
theorem frameWord_fields (sp : Long) (vec : BitVec 8) (old : Word) :
    let f := frameWord sp vec old
    f.extractLsb' 28 4 = 4 + (sp.extractLsb' 0 2).setWidth 4 ∧ f.extractLsb' 26 2 = 0 ∧
      f.extractLsb' 18 8 = vec ∧ f.extractLsb' 16 2 = 0 ∧ f.extractLsb' 0 16 = old := by
  have format : ∀ m : BitVec 2, (1#2 ++ m : BitVec 4) = 4 + m.setWidth 4 := by decide
  rw [← format]
  refine ⟨?_, ?_, ?_, ?_, BitVec.extractLsb'_append_eq_right⟩ <;>
    simp (disch := decide) only [frameWord, BitVec.extractLsb'_append_eq_of_le, Nat.reduceSub,
      BitVec.extractLsb'_append_eq_right, BitVec.extractLsb'_eq_self, BitVec.ofNat_eq_ofNat]

/-! ### Memory next to a store -/

theorem State.peek_congr {s t : State} (h : t.mem = s.mem) (a : Long) (sz : Size) : t.peek a sz = s.peek a sz := by
  unfold State.peek State.byteAt; rw [h]

/-- What a device owns depends on the parameters alone. -/
theorem State.ioAt_congr {s t : State} (h : t.cfg = s.cfg) (a : Long) (n : Nat) : t.ioAt a n = s.ioAt a n := by
  unfold State.ioAt; rw [h]

/-- A store changes memory or, for a device, the history. -/
theorem State.deposit_eq_with (s : State) (a : Long) (sz : Size) (v : Long) :
    ∃ m l, s.deposit a sz v = { s with mem := m, ioLog := l } := by
  unfold State.deposit
  split
  · exact ⟨s.mem, _, rfl⟩
  · exact ⟨_, s.ioLog, rfl⟩

/-- A read changes the history and the draws, and those for a device alone. -/
theorem State.access_eq_with (s : State) (k : AccessKind) (a : Long) (sz : Size) :
    ∃ l d, (s.access k a sz).2 = { s with ioLog := l, drawCount := d } := by
  unfold State.access
  split
  · exact ⟨_, _, rfl⟩
  · exact ⟨s.ioLog, s.drawCount, rfl⟩

/-- A store leaves a read of other bytes alone. -/
theorem State.peek_deposit_of_disjoint (s : State) {a b : Long} {sz sz' : Size} (v : Long)
    (h : ∀ k ∈ spanAddrs b sz'.bytes, k ∉ spanAddrs a sz.bytes) :
    (s.deposit a sz v).peek b sz' = s.peek b sz' := by
  unfold State.peek
  rw [List.map_congr_left fun k hk => State.deposit_byteAt s a sz v (h k hk)]

/-- A long word stored to plain memory reads back. -/
theorem State.peek_deposit_long {s : State} {a : Long} (v : Long) (hs : s.mem.wf = true) (h : s.ioAt a 4 = false) :
    (s.deposit a .l v).peek a .l = v := by
  rw [State.deposit_plain (sz := .l) v h, State.peek_poke hs]
  rfl

/-- Eight bytes are two long words. -/
theorem spanAddrs_eight (a : Long) : spanAddrs a 8 = spanAddrs a 4 ++ spanAddrs (a + 4) 4 := by
  simp [spanAddrs, List.range_succ, BitVec.add_assoc]

/-- Two long words next to each other share no byte. -/
theorem spanAddrs_next_disjoint (a : Long) : ∀ k ∈ spanAddrs (a + 4) 4, k ∉ spanAddrs a 4 := by
  simp only [spanAddrs, List.mem_map, List.mem_range]
  rintro k ⟨i, hi, rfl⟩ ⟨j, hj, hij⟩
  bv_omega

/-! ### The states of an entry (60 R434) -/

/-- The state with the SR of the entry: S set and T cleared. -/
def State.entering (s : State) (level : Option (BitVec 3)) : State := { s with sr := entrySr s.sr level }

/-- The stack pointer the frame is built under: A7 of the entry, aligned down. -/
def State.frameTop (s : State) (level : Option (BitVec 3)) : Long := alignDown ((s.entering level).a 7)

/-- The state with the stacked PC stored. -/
def State.pcStacked (s : State) (pc : Long) (level : Option (BitVec 3)) : State :=
  (s.entering level).deposit (s.frameTop level - 4) .l pc

/-- The state with both words of the frame stored. -/
def State.frameStacked (s : State) (vec : BitVec 8) (pc : Long) (level : Option (BitVec 3)) : State :=
  (s.pcStacked pc level).deposit (s.frameTop level - 8) .l (frameWord ((s.entering level).a 7) vec s.sr)

/-- The state in which the vector is read. -/
def State.vectoring (s : State) (vec : BitVec 8) (pc : Long) (level : Option (BitVec 3)) : State :=
  { s.frameStacked vec pc level with
    ssp := s.frameTop level - 8
    runState := .running
    afterException := true }

section
variable (s : State) (vec : BitVec 8) (pc : Long) (level : Option (BitVec 3))

@[simp] theorem State.entering_cfg : (s.entering level).cfg = s.cfg := rfl

@[simp] theorem State.pcStacked_cfg : (s.pcStacked pc level).cfg = s.cfg := State.deposit_cfg ..

@[simp] theorem State.frameStacked_cfg : (s.frameStacked vec pc level).cfg = s.cfg :=
  (State.deposit_cfg ..).trans (s.pcStacked_cfg pc level)

@[simp] theorem State.vectoring_cfg : (s.vectoring vec pc level).cfg = s.cfg := s.frameStacked_cfg vec pc level

@[simp] theorem State.frameStacked_sr : (s.frameStacked vec pc level).sr = entrySr s.sr level := by
  simp [State.frameStacked, State.pcStacked, State.entering]

@[simp] theorem State.frameStacked_vbr : (s.frameStacked vec pc level).vbr = s.vbr := by
  simp [State.frameStacked, State.pcStacked, State.entering]

/-- Up to the read of the vector an entry changes SR, the supervisor stack pointer, memory or the history, the run
state and the mark. -/
theorem State.vectoring_eq_with : ∃ m l, s.vectoring vec pc level =
    { s with
      sr := entrySr s.sr level
      ssp := s.frameTop level - 8
      mem := m
      ioLog := l
      runState := .running
      afterException := true } := by
  obtain ⟨m, l, hpc⟩ := State.deposit_eq_with (s.entering level) (s.frameTop level - 4) .l pc
  obtain ⟨m', l', hframe⟩ := State.deposit_eq_with (s.pcStacked pc level) (s.frameTop level - 8) .l
    (frameWord ((s.entering level).a 7) vec s.sr)
  refine ⟨m', l', ?_⟩
  rw [State.vectoring, State.frameStacked, hframe, State.pcStacked, hpc]
  rfl

/-! ### The frame in memory -/

/-- The frame words are the only bytes an entry stores to. -/
theorem State.frameStacked_byteAt {k : Nat} (h : k ∉ spanAddrs (s.frameTop level - 8) 8) :
    (s.frameStacked vec pc level).byteAt k = s.byteAt k := by
  have hnext : s.frameTop level - 8 + 4 = s.frameTop level - 4 := by bv_omega
  rw [spanAddrs_eight, hnext, List.mem_append, not_or] at h
  obtain ⟨hframe, hpc⟩ := h
  rw [State.frameStacked, State.deposit_byteAt _ _ .l _ hframe, State.pcStacked,
    State.deposit_byteAt _ _ .l _ hpc]
  rfl

/-- In plain memory the frame holds its first word. -/
theorem State.frameStacked_peek_frame (hs : s.mem.wf = true) (h : s.ioAt (s.frameTop level - 8) 4 = false) :
    (s.frameStacked vec pc level).peek (s.frameTop level - 8) .l = frameWord ((s.entering level).a 7) vec s.sr := by
  have hio : (s.pcStacked pc level).ioAt (s.frameTop level - 8) 4 = false := by
    rw [State.ioAt_congr (s.pcStacked_cfg pc level), h]
  exact State.peek_deposit_long _ (State.deposit_wf (s := s.entering level) hs _ _ _) hio

/-- In plain memory the stacked PC is above the first word, whose store leaves it. -/
theorem State.frameStacked_peek_pc (hs : s.mem.wf = true) (h : s.ioAt (s.frameTop level - 4) 4 = false) :
    (s.frameStacked vec pc level).peek (s.frameTop level - 4) .l = pc := by
  have hnext : s.frameTop level - 8 + 4 = s.frameTop level - 4 := by bv_omega
  rw [State.frameStacked, State.peek_deposit_of_disjoint _ _ (hnext ▸ spanAddrs_next_disjoint _)]
  exact State.peek_deposit_long (s := s.entering level) pc hs h

/-! ### What an entry answers -/

/-- The stacked PC is stored first: its fault leaves SR changed. -/
theorem State.enter_pc_unmapped (h : s.mappedAt (s.frameTop level - 4) 4 = false) :
    s.enter vec pc level =
      .fault (.hit (.unmappedAccess (s.frameTop level - 4) 4 .write) (s.entering level)) := by
  have hstore : (s.entering level).store (s.frameTop level - 4) .l pc = _ := State.store_unmapped pc h
  change withState ((s.entering level).store (s.frameTop level - 4) .l pc) _ = _
  rw [hstore, withState_error]
  rfl

/-- With the stacked PC stored, the first word of the frame is. -/
theorem State.enter_pc_mapped (h : s.mappedAt (s.frameTop level - 4) 4 = true) :
    s.enter vec pc level =
      withState ((s.pcStacked pc level).store (s.frameTop level - 8) .l
          (frameWord ((s.entering level).a 7) vec s.sr)) fun u =>
        let u' := { u.setA 7 (s.frameTop level - 8) with runState := .running, afterException := true }
        withValue (u'.load .read (u'.vectorAddr vec) .l) fun handler t => t.goto handler := by
  have hstore : (s.entering level).store (s.frameTop level - 4) .l pc = _ := State.store_mapped pc h
  change withState ((s.entering level).store (s.frameTop level - 4) .l pc) _ = _
  rw [hstore, withState_ok]
  rfl

/-- The fault of the first word leaves the stacked PC stored. -/
theorem State.enter_frame_unmapped (hpc : s.mappedAt (s.frameTop level - 4) 4 = true)
    (h : s.mappedAt (s.frameTop level - 8) 4 = false) :
    s.enter vec pc level =
      .fault (.hit (.unmappedAccess (s.frameTop level - 8) 4 .write) (s.pcStacked pc level)) := by
  have hmap : (s.pcStacked pc level).mappedAt (s.frameTop level - 8) 4 = false := by
    rw [State.mappedAt_congr (s.pcStacked_cfg pc level), h]
  rw [State.enter_pc_mapped s vec pc level hpc, State.store_unmapped (sz := .l) _ hmap, withState_error]
  rfl

/-- With the frame stored, the handler's address is read and taken. -/
theorem State.enter_frame_mapped (hpc : s.mappedAt (s.frameTop level - 4) 4 = true)
    (hframe : s.mappedAt (s.frameTop level - 8) 4 = true) :
    s.enter vec pc level =
      withValue ((s.vectoring vec pc level).load .read (s.vectorAddr vec) .l) fun handler t => t.goto handler := by
  have hmap : (s.pcStacked pc level).mappedAt (s.frameTop level - 8) 4 = true := by
    rw [State.mappedAt_congr (s.pcStacked_cfg pc level), hframe]
  have hvbr : (s.vectoring vec pc level).vectorAddr vec = s.vectorAddr vec :=
    congrArg (· + 4 * vec.setWidth 32) (s.frameStacked_vbr vec pc level)
  have hset := State.setA_seven_eq_ssp (State.onUsp_of_entrySr (s.frameStacked_sr vec pc level)) (s.frameTop level - 8)
  rw [State.enter_pc_mapped s vec pc level hpc, State.store_mapped (sz := .l) _ hmap, withState_ok, ← hvbr]
  change (let u' := { (s.frameStacked vec pc level).setA 7 (s.frameTop level - 8) with
    runState := .running, afterException := true }; withValue (u'.load .read (u'.vectorAddr vec) .l) _) = _
  rw [hset]
  rfl

/-- The fault of the vector leaves the frame stored, A7 on it and the mark set. -/
theorem State.enter_vector_unmapped (hpc : s.mappedAt (s.frameTop level - 4) 4 = true)
    (hframe : s.mappedAt (s.frameTop level - 8) 4 = true) (h : s.mappedAt (s.vectorAddr vec) 4 = false) :
    s.enter vec pc level =
      .fault (.hit (.unmappedAccess (s.vectorAddr vec) 4 .read) (s.vectoring vec pc level)) := by
  have hmap : (s.vectoring vec pc level).mappedAt (s.vectorAddr vec) 4 = false := by
    rw [State.mappedAt_congr (s.vectoring_cfg vec pc level), h]
  rw [State.enter_frame_mapped s vec pc level hpc hframe, State.load_unmapped (sz := .l) _ hmap, withValue_error]
  rfl

/-- The state an entered handler starts from: the vector read, and the PC at what it holds. -/
def State.entered : State :=
  let p := (s.vectoring vec pc level).access .read (s.vectorAddr vec) .l
  p.2.atPc p.1

/-- With all three accesses mapped the handler is entered. -/
theorem State.enter_mapped (hpc : s.mappedAt (s.frameTop level - 4) 4 = true)
    (hframe : s.mappedAt (s.frameTop level - 8) 4 = true) (hvec : s.mappedAt (s.vectorAddr vec) 4 = true) :
    s.enter vec pc level = .next (s.entered vec pc level) := by
  have hmap : (s.vectoring vec pc level).mappedAt (s.vectorAddr vec) 4 = true := by
    rw [State.mappedAt_congr (s.vectoring_cfg vec pc level), hvec]
  rw [State.enter_frame_mapped s vec pc level hpc hframe, State.load_mapped (sz := .l) _ hmap]
  rfl

/-! ### The entered state -/

/-- Reading the vector and going to the handler changes the PC and, for a device, the history and the draws. -/
theorem State.entered_eq_vectoring_with : ∃ p l d,
    s.entered vec pc level = { s.vectoring vec pc level with pc := p, ioLog := l, drawCount := d } := by
  obtain ⟨l, d, haccess⟩ := (s.vectoring vec pc level).access_eq_with .read (s.vectorAddr vec) .l
  exact ⟨_, l, d, by rw [State.entered, haccess]; rfl⟩

@[simp] theorem State.entered_sr : (s.entered vec pc level).sr = entrySr s.sr level := by
  obtain ⟨p, l, d, h⟩ := s.entered_eq_vectoring_with vec pc level
  rw [h]
  exact s.frameStacked_sr vec pc level

@[simp] theorem State.entered_ssp : (s.entered vec pc level).ssp = s.frameTop level - 8 := by
  obtain ⟨p, l, d, h⟩ := s.entered_eq_vectoring_with vec pc level
  rw [h]
  rfl

@[simp] theorem State.entered_mem : (s.entered vec pc level).mem = (s.frameStacked vec pc level).mem := by
  obtain ⟨p, l, d, h⟩ := s.entered_eq_vectoring_with vec pc level
  rw [h]
  rfl

/-- In plain memory the handler is what the vector holds, with the frame stored. -/
theorem State.entered_pc (h : s.ioAt (s.vectorAddr vec) 4 = false) :
    (s.entered vec pc level).pc = (s.entered vec pc level).peek (s.vectorAddr vec) .l := by
  have hio : (s.vectoring vec pc level).ioAt (s.vectorAddr vec) 4 = false := by
    rw [State.ioAt_congr (s.vectoring_cfg vec pc level), h]
  rw [State.peek_congr (s := s.vectoring vec pc level) (s.entered_mem vec pc level), State.entered,
    State.access_plain (sz := .l) _ hio]
  rfl

/-- An entry changes no field of the state but these. -/
theorem State.entered_eq_with :
    s.entered vec pc level =
      { s with
        sr := (s.entered vec pc level).sr
        ssp := (s.entered vec pc level).ssp
        mem := (s.entered vec pc level).mem
        pc := (s.entered vec pc level).pc
        ioLog := (s.entered vec pc level).ioLog
        drawCount := (s.entered vec pc level).drawCount
        runState := .running
        afterException := true } := by
  obtain ⟨m, l, hvectoring⟩ := s.vectoring_eq_with vec pc level
  obtain ⟨p, l', d, hentered⟩ := s.entered_eq_vectoring_with vec pc level
  rw [hentered, hvectoring]

end

/-- Settles O27: each fault and the entry are lemmas of their own; of the entered state, SR is that of `entrySr`, A7 the
supervisor stack pointer, and memory that with the frame stored. -/
theorem exceptionEntry : Obligations.ExceptionEntry := by
  intro s vec pc level sp sp' va s1
  refine ⟨s.enter_pc_unmapped vec pc level, s.enter_frame_unmapped vec pc level, s.enter_vector_unmapped vec pc level,
    fun hpc hframe hvec => ⟨s.entered vec pc level, s.enter_mapped vec pc level hpc hframe hvec, ?_⟩⟩
  have hsr := s.entered_sr vec pc level
  have hmem := s.entered_mem vec pc level
  have ha7 := State.a_seven_eq_ssp (State.onUsp_of_entrySr hsr)
  refine ⟨?_, ?_, ha7.trans (s.entered_ssp vec pc level), s.entered_ssp vec pc level, ?_, ?_, ?_,
    s.entered_eq_with vec pc level, s.entered_pc vec pc level, fun k hk => ?_, fun hwf hpcPlain hframePlain => ?_⟩
  · rw [State.supervisor, hsr, entrySr_supervisor]
  · rw [State.tracing, hsr, entrySr_tracing]
  · rw [State.ccr, hsr, entrySr_ccr, State.ccr]
  · rintro rfl
    rw [State.intMask, State.master, hsr, entrySr_none_intMask, entrySr_none_master]
    exact ⟨rfl, rfl⟩
  · rintro l rfl
    rw [State.intMask, State.master, hsr, entrySr_some_intMask, entrySr_some_master]
    exact ⟨rfl, rfl⟩
  · rw [← s.frameStacked_byteAt vec pc level hk, State.byteAt, hmem, State.byteAt]
  · intro f
    have hf : f = frameWord sp vec s.sr :=
      (State.peek_congr hmem _ _).trans (s.frameStacked_peek_frame vec pc level hwf hframePlain)
    rw [hf]
    exact ⟨(State.peek_congr hmem _ _).trans (s.frameStacked_peek_pc vec pc level hwf hpcPlain),
      frameWord_fields sp vec s.sr⟩

end Sys2Proof.Machine
end

section
/-! PROOFS. A divisor of 0 (43_mul_div.md section 3; 60_exceptions.md R440): the flags that are drawn, the address
register of an auto mode, and the entry of vector 5 from the state they leave. -/

namespace Sys2Proof.Machine

/-! ### Address registers that a list of registers bounds (10 R31, R32) -/

/-- From `s` to `u` the mode is the same and no address register outside the list changes; of the stack pointers the one
that A7 does not name stays, and both do when A7 is not in the list. -/
structure State.AddressesKept (s u : State) (rs : List RegNo) : Prop where
  onUsp : u.onUsp = s.onUsp
  others : ∀ n, n ∉ rs → u.a n = s.a n
  pointers : 7 ∉ rs → u.ssp = s.ssp ∧ u.usp = s.usp
  inactive : if s.onUsp then u.ssp = s.ssp else u.usp = s.usp

/-- A write of an address register below A7 reaches neither stack pointer. -/
theorem State.setA_stacks_of_ne_seven (s : State) {n : RegNo} (v : Long) (h : n ≠ 7) :
    (s.setA n v).ssp = s.ssp ∧ (s.setA n v).usp = s.usp := by
  have hn : n.toNat < 7 := by bv_omega
  simp [State.setA, hn]

/-- A write of an address register leaves the stack pointer that A7 does not name. -/
theorem State.setA_inactive (s : State) (n : RegNo) (v : Long) :
    if s.onUsp then (s.setA n v).ssp = s.ssp else (s.setA n v).usp = s.usp := by
  unfold State.setA
  cases h : s.onUsp <;> by_cases hn : n.toNat < 7 <;> simp [hn]

theorem State.AddressesKept.refl (s : State) (rs : List RegNo) : s.AddressesKept s rs :=
  ⟨rfl, fun _ _ => rfl, fun _ => ⟨rfl, rfl⟩, by split <;> rfl⟩

/-- Writing a register of the list keeps the others. -/
theorem State.AddressesKept.setA {s u : State} {rs : List RegNo} (h : s.AddressesKept u rs) {n : RegNo}
    (hn : n ∈ rs) (v : Long) : s.AddressesKept (u.setA n v) rs where
  onUsp := (u.onUsp_setA n v).trans h.onUsp
  others m hm := by
    have hne : n ≠ m := fun he => hm (he ▸ hn)
    rw [State.a_setA, if_neg hne, h.others m hm]
  pointers h7 := by
    obtain ⟨hssp, husp⟩ := u.setA_stacks_of_ne_seven v fun he : n = 7 => h7 (he ▸ hn)
    exact ⟨hssp.trans (h.pointers h7).1, husp.trans (h.pointers h7).2⟩
  inactive := by
    have hset := u.setA_inactive n v
    have hkept := h.inactive
    rw [h.onUsp] at hset
    split at hset
    next hu => rw [if_pos hu] at hkept ⊢; exact hset.trans hkept
    next hu => rw [if_neg hu] at hkept ⊢; exact hset.trans hkept

/-- A state with the same address registers, stack pointers and mode keeps what the other does. -/
theorem State.AddressesKept.congr {s u t : State} {rs : List RegNo} (h : s.AddressesKept u rs)
    (haregs : t.aregs = u.aregs) (hssp : t.ssp = u.ssp) (husp : t.usp = u.usp) (honUsp : t.onUsp = u.onUsp) :
    s.AddressesKept t rs where
  onUsp := honUsp.trans h.onUsp
  others n hn := (State.a_congr haregs hssp husp honUsp n).trans (h.others n hn)
  pointers h7 := by rw [hssp, husp]; exact h.pointers h7
  inactive := by rw [hssp, husp]; exact h.inactive

/-- Resolving an operand changes at most the register of its auto mode (20 R94, R95). -/
theorem State.autoUpdate_addressesKept (s : State) (sz : Size) (e : Ea) :
    s.AddressesKept (s.autoUpdate sz e) (Ea.autoRegs e) := by
  cases e with
  | postInc n | preDec n => exact (State.AddressesKept.refl s _).setA List.mem_cons_self _
  | _ => exact State.AddressesKept.refl s _

/-- Reading a source operand changes no other address register than resolving it does. -/
theorem State.source_addressesKept (s : State) (sz : Size) (e : Ea) :
    s.AddressesKept (s.source sz e).2 (Ea.autoRegs e) :=
  (s.autoUpdate_addressesKept sz e).congr (State.locValue_aregs ..) (State.locValue_ssp ..)
    (State.locValue_usp ..) (State.onUsp_congr (State.locValue_sr ..) (State.locValue_cfg ..))

theorem State.setA_eq_with (s : State) (n : RegNo) (v : Long) :
    ∃ r p q, s.setA n v = { s with aregs := r, ssp := p, usp := q } := by
  unfold State.setA
  split
  · exact ⟨_, s.ssp, s.usp, rfl⟩
  · split
    · exact ⟨s.aregs, s.ssp, _, rfl⟩
    · exact ⟨s.aregs, _, s.usp, rfl⟩

/-! ### The state that a divide by zero enters from (43 section 3) -/

/-- N, Z and V are some values, C is 0 and X is kept. -/
theorem State.drawNZV_eq_setCcr (s : State) : ∃ f : Ccr, f.x = s.ccr.x ∧ f.c = false ∧
    s.drawNZV = State.setCcr { s with drawCount := s.drawCount + 3 } f :=
  let n := s.drawBit
  let z := n.2.drawBit
  ⟨{ x := s.ccr.x, n := n.1, z := z.1, v := z.2.drawBit.1, c := false }, rfl, rfl, rfl⟩

/-- The address register of an auto mode is left, or put back to what it was. -/
theorem State.drawAuto_cases (s before : State) (e : Ea) : ∃ d,
    s.drawAuto before e = { s with drawCount := d } ∨
      ∃ n ∈ Ea.autoRegs e, s.drawAuto before e = State.setA { s with drawCount := d } n (before.a n) := by
  cases e with
  | postInc n | preDec n =>
    refine ⟨s.drawCount + 1, ?_⟩
    simp only [State.drawAuto]
    split
    · exact .inr ⟨n, List.mem_cons_self, rfl⟩
    · exact .inl rfl
  | _ => exact ⟨s.drawCount, .inl rfl⟩

/-- The state after the divisor is read, with the flags and the address register drawn. -/
def State.zeroDivided (s : State) (sz : Size) (e : Ea) : State := (s.source sz e).2.drawNZV.drawAuto s e

/-- Of the state after the divisor is read the flags change, and the register of an auto mode may be put back. -/
theorem State.zeroDivided_cases (s : State) (sz : Size) (e : Ea) : ∃ (f : Ccr) (d : Nat),
    f.x = s.ccr.x ∧ f.c = false ∧
      let u := State.setCcr { (s.source sz e).2 with drawCount := d } f
      (s.zeroDivided sz e = u ∨ ∃ n ∈ Ea.autoRegs e, s.zeroDivided sz e = u.setA n (s.a n)) := by
  obtain ⟨f, hx, hc, hflags⟩ := (s.source sz e).2.drawNZV_eq_setCcr
  obtain ⟨d, hauto⟩ := (s.source sz e).2.drawNZV.drawAuto_cases s e
  have hccr : (s.source sz e).2.ccr = s.ccr := by simp [State.source]
  refine ⟨f, d, hx.trans (congrArg Ccr.x hccr), hc, ?_⟩
  rw [hflags] at hauto
  rw [State.zeroDivided, hflags]
  exact hauto

section
variable (s : State) (sz : Size) (e : Ea)

/-- X is kept, C is 0, and the bits above the flags stay. -/
theorem State.zeroDivided_sr : (s.zeroDivided sz e).ccr.x = s.ccr.x ∧ (s.zeroDivided sz e).ccr.c = false ∧
    (s.zeroDivided sz e).sr.extractLsb' 5 11 = s.sr.extractLsb' 5 11 := by
  obtain ⟨f, d, hx, hc, hcases⟩ := s.zeroDivided_cases sz e
  have hsr : (s.zeroDivided sz e).sr = (State.setCcr { (s.source sz e).2 with drawCount := d } f).sr := by
    obtain h | ⟨n, -, h⟩ := hcases
    · rw [h]
    · rw [h, State.setA_sr]
  rw [State.ccr_congr hsr, hsr, State.ccr_setCcr, State.setCcr_srHigh]
  exact ⟨hx, hc, by simp [State.source]⟩

/-- Nothing but the flags, the address registers and the draws changes once the divisor is read. -/
theorem State.zeroDivided_eq_with :
    s.zeroDivided sz e =
      { (s.source sz e).2 with
        sr := (s.zeroDivided sz e).sr
        aregs := (s.zeroDivided sz e).aregs
        ssp := (s.zeroDivided sz e).ssp
        usp := (s.zeroDivided sz e).usp
        drawCount := (s.zeroDivided sz e).drawCount } := by
  obtain ⟨f, d, -, -, h | ⟨n, -, h⟩⟩ := s.zeroDivided_cases sz e
  · rw [h]
    rfl
  · obtain ⟨r, p, q, hset⟩ :=
      State.setA_eq_with (State.setCcr { (s.source sz e).2 with drawCount := d } f) n (s.a n)
    rw [h, hset]
    rfl

/-- No address register changes but that of an auto mode. -/
theorem State.zeroDivided_addressesKept : s.AddressesKept (s.zeroDivided sz e) (Ea.autoRegs e) := by
  obtain ⟨f, d, -, -, hcases⟩ := s.zeroDivided_cases sz e
  have hflags : s.AddressesKept (State.setCcr { (s.source sz e).2 with drawCount := d } f) (Ea.autoRegs e) :=
    (s.source_addressesKept sz e).congr rfl rfl rfl (State.onUsp_setCcr _ f)
  obtain h | ⟨n, hn, h⟩ := hcases
  · rw [h]
    exact hflags
  · rw [h]
    exact hflags.setA hn _

/-- Each address register is as before the instruction or as resolving the operand leaves it. -/
theorem State.zeroDivided_a (n : RegNo) :
    (s.zeroDivided sz e).a n = s.a n ∨ (s.zeroDivided sz e).a n = (s.autoUpdate sz e).a n := by
  obtain ⟨f, d, -, -, hcases⟩ := s.zeroDivided_cases sz e
  have hflags : (State.setCcr { (s.source sz e).2 with drawCount := d } f).a n = (s.autoUpdate sz e).a n :=
    (State.a_setCcr _ f n).trans (State.a_locValue (s.autoUpdate sz e) sz (s.locate sz e) n)
  obtain h | ⟨m, -, h⟩ := hcases
  · exact .inr (by rw [h, hflags])
  · rw [h, State.a_setA]
    split
    next he => exact .inl (by rw [he])
    next => exact .inr hflags

end

/-! ### The six instructions (43 R306 to R311; 60 R440) -/

/-- Every divide and remainder reads its divisor first. -/
theorem exec_divide_eq_withDivisor (s : State) (src : Ea) (w x : RegNo) :
    ∀ i ∈ [Instr.divuW src x, .divsW src x, .divuL src x, .divsL src x, .remuL src w x, .remsL src w x],
      ∃ k, exec i s = s.withDivisor i.row.eaSize src k := by
  intro i hi
  simp only [List.mem_cons, List.not_mem_nil, or_false] at hi
  obtain rfl | rfl | rfl | rfl | rfl | rfl := hi <;> exact ⟨_, rfl⟩

/-- A divisor of 0 enters vector 5 with the instruction's own address stacked. -/
theorem State.withDivisor_zero {s : State} {sz : Size} {e : Ea} (k : Long → State → Result)
    (hreach : s.reaches sz e = true) (hzero : (s.source sz e).1 = 0) :
    s.withDivisor sz e k = (s.zeroDivided sz e).enter 5 s.pc none := by
  have hpc : (s.zeroDivided sz e).pc = s.pc := by
    rw [s.zeroDivided_eq_with sz e]
    simp [State.source]
  rw [State.withDivisor, State.withSource_reaches _ hreach, if_pos hzero, ← hpc]
  rfl

/-- Settles O51: the six instructions come down to `State.withDivisor`, and each part of the state it enters from is a
lemma about `State.zeroDivided`. -/
theorem divideByZero : Obligations.DivideByZero := by
  intro s src w x i hi hreach hzero
  obtain ⟨k, hexec⟩ := exec_divide_eq_withDivisor s src w x i hi
  have heq := s.zeroDivided_eq_with i.row.eaSize src
  have hkept := s.zeroDivided_addressesKept i.row.eaSize src
  obtain ⟨hx, hc, hhigh⟩ := s.zeroDivided_sr i.row.eaSize src
  refine ⟨s.zeroDivided i.row.eaSize src, hexec.trans (State.withDivisor_zero k hreach hzero), hx, hc, hhigh,
    ?_, ?_, ?_, ?_, ?_, ?_, ?_, ?_, ?_, heq, hkept.others, hkept.pointers, hkept.inactive,
    fun n _ => s.zeroDivided_a i.row.eaSize src n⟩ <;>
  · rw [heq]
    simp [State.source]

end Sys2Proof.Machine
end

section
/-! PROOFS. Reset (70_reset_and_hazards.md R480): SR is 0x2700 with the drawn flags in bits 4:0, A7 is the supervisor's
stack pointer, and every control register but USP reads 0. -/

namespace Sys2Proof.Machine

/-! ### SR at reset (10 R38, R39) -/

section
variable (cfg : Config) (image : Memory) (r : ResetDraws)

theorem State.resetWith_sr :
    (State.resetWith cfg image r).sr = 0x2700#16 ||| r.ccr.setWidth 16 := rfl

/-- The draw does not reach the bits above the flags. -/
theorem State.resetWith_sr_getLsbD {i : Nat} (hi : 5 ≤ i) :
    (State.resetWith cfg image r).sr.getLsbD i = (0x2700#16).getLsbD i := by
  rw [State.resetWith_sr, BitVec.getLsbD_or, BitVec.getLsbD_setWidth, BitVec.getLsbD_of_ge r.ccr i hi]
  simp

@[simp] theorem State.resetWith_tracing : (State.resetWith cfg image r).tracing = false :=
  State.resetWith_sr_getLsbD cfg image r (i := 15) (by decide)

@[simp] theorem State.resetWith_supervisor : (State.resetWith cfg image r).supervisor = true :=
  State.resetWith_sr_getLsbD cfg image r (i := 13) (by decide)

@[simp] theorem State.resetWith_master : (State.resetWith cfg image r).master = false :=
  State.resetWith_sr_getLsbD cfg image r (i := 12) (by decide)

@[simp] theorem State.resetWith_intMask : (State.resetWith cfg image r).intMask = 7 := by
  have hseven : (0x2700#16).extractLsb' 8 3 = 7 := by decide
  rw [State.intMask, ← hseven]
  apply BitVec.eq_of_getLsbD_eq
  intro i hi
  rw [BitVec.getLsbD_extractLsb', BitVec.getLsbD_extractLsb',
    State.resetWith_sr_getLsbD cfg image r (by omega)]

@[simp] theorem State.resetWith_ccr : (State.resetWith cfg image r).ccr = Ccr.ofBits r.ccr := by
  have hflags : (0x2700#16).extractLsb' 0 5 = 0#5 := by decide
  have hdraw : (r.ccr.setWidth 16).extractLsb' 0 5 = r.ccr := by
    rw [← BitVec.setWidth_eq_extractLsb' (by decide)]
    exact BitVec.setWidth_setWidth_of_le r.ccr (by decide)
  rw [State.ccr, State.resetWith_sr, BitVec.extractLsb'_or, hflags, hdraw, BitVec.zero_or]

/-- Both 0x2700 and the drawn flags hold only bits that exist. -/
theorem State.resetWith_sr_reserved : (State.resetWith cfg image r).sr &&& ~~~srMask = 0 := by
  have hflags : r.ccr.setWidth 16 &&& ~~~srMask = 0 := by
    rw [reserved_zero_iff]
    intro i hi hbit
    have hlow : i < 5 := by
      by_contra hge
      rw [BitVec.getLsbD_setWidth, BitVec.getLsbD_of_ge r.ccr i (by omega)] at hbit
      simp at hbit
    simp [srMask_getLsbD i hi, Nat.le_of_lt_succ hlow]
  exact reserved_zero_or (by decide) hflags

/-! ### The registers at reset (10 R32, R44) -/

/-- Reset is in supervisor mode, so A7 is SSP under either value of `DUAL_STACK`. -/
@[simp] theorem State.resetWith_a_seven : (State.resetWith cfg image r).a 7 = cfg.initialSsp :=
  State.a_seven_eq_ssp (by simp [State.onUsp])

/-- VBR and every stored control register read 0; only OTHER_A7, which is a stack pointer, need not. -/
theorem State.resetWith_control {code : BitVec 12} (hcode : code ≠ 0x800) :
    (State.resetWith cfg image r).control code = 0 := by
  unfold State.control
  by_cases hvbr : code = 0x801
  · rw [if_pos hvbr]
    rfl
  · rw [if_neg hvbr, if_neg hcode]
    exact Sparse.get_nil code.toNat

end

/-- Settles O1: SR, A7 and the control registers by their lemmas, every other field as `State.resetWith` writes it. -/
theorem resetValues : Obligations.ResetValues := by
  refine ⟨⟨Config.default, [], ResetDraws.zero, rfl⟩, ?_⟩
  intro cfg image r
  exact ⟨fun _ => rfl, rfl, rfl, State.resetWith_a_seven cfg image r, rfl, rfl, State.resetWith_tracing cfg image r,
    State.resetWith_supervisor cfg image r, State.resetWith_master cfg image r, State.resetWith_intMask cfg image r,
    State.resetWith_sr_reserved cfg image r, State.resetWith_ccr cfg image r, rfl,
    fun _ hcode => State.resetWith_control cfg image r hcode, rfl, rfl, rfl, rfl, rfl, rfl, rfl, rfl⟩

end Sys2Proof.Machine
end

section
/-! PROOFS. Footprints: which registers, bytes and flags may change from one state to another, and that each update of
the state stays within every footprint that lists it. -/

namespace Sys2Proof.Machine

/-! ### Footprints -/

/-- The condition codes an instruction may change (10 R55). -/
inductive FlagSet where
  | none | z | allButX | all
  deriving DecidableEq

/-- From `f` to `g` no condition code outside the set changes. -/
def FlagSet.Keeps : FlagSet → Ccr → Ccr → Prop
  | .none, f, g => g = f
  | .z, f, g => g = { f with z := g.z }
  | .allButX, f, g => g.x = f.x
  | .all, _, _ => True

theorem FlagSet.Keeps.refl (m : FlagSet) (f : Ccr) : m.Keeps f f := by
  cases m with
  | all => trivial
  | none | z | allButX => rfl

theorem FlagSet.Keeps.trans {m : FlagSet} {f g h : Ccr} (hfg : m.Keeps f g) (hgh : m.Keeps g h) : m.Keeps f h := by
  cases m with
  | none => exact Eq.trans hgh hfg
  | z =>
    have hg : g = { f with z := g.z } := hfg
    have hh : h = { g with z := h.z } := hgh
    show h = { f with z := h.z }
    rw [hh, hg]
  | allButX => exact Eq.trans hgh hfg
  | all => trivial

/-- What an ordinary instruction may change besides the PC, the device history and the draws. -/
structure Footprint where
  dregs : List RegNo
  aregs : List RegNo
  spans : List (Long × Nat)
  flags : FlagSet

/-- The part of the state that no ordinary instruction changes. -/
structure SystemPart where
  cfg : Config
  fault : Option FaultReason
  refused : Option RefusalReason
  ipl : List (BitVec 3)
  iplPrev : BitVec 3
  cursor : Long
  vbr : Long
  ctrl : Sparse 32
  runState : RunState
  afterException : Bool

def State.system (s : State) : SystemPart where
  cfg := s.cfg
  fault := s.fault
  refused := s.refused
  ipl := s.ipl
  iplPrev := s.iplPrev
  cursor := s.cursor
  vbr := s.vbr
  ctrl := s.ctrl
  runState := s.runState
  afterException := s.afterException

@[simp] theorem State.system_setA (s : State) (n : RegNo) (v : Long) : (s.setA n v).system = s.system := by
  simp [State.system]
@[simp] theorem State.system_deposit (s : State) (a : Long) (sz : Size) (v : Long) :
    (s.deposit a sz v).system = s.system := by simp [State.system]
@[simp] theorem State.system_access (s : State) (k : AccessKind) (a : Long) (sz : Size) :
    (s.access k a sz).2.system = s.system := by simp [State.system]

/-- From `s` to `t` nothing changes but the PC, what the footprint lists, and, for device accesses and free values,
the history and the draws. -/
structure State.Within (p : Footprint) (s t : State) : Prop where
  dregs : ∀ n, n ∉ p.dregs → t.d n = s.d n
  addresses : s.AddressesKept t p.aregs
  bytes : ∀ k, (∀ q ∈ p.spans, k ∉ spanAddrs q.1 q.2) → t.byteAt k = s.byteAt k
  memWf : s.mem.wf = true → t.mem.wf = true
  srHigh : t.sr.extractLsb' 5 11 = s.sr.extractLsb' 5 11
  flags : p.flags.Keeps s.ccr t.ccr
  ioLog : s.ioLog <+: t.ioLog
  drawCount : s.drawCount ≤ t.drawCount
  system : t.system = s.system

/-! ### Each update of the state stays within the footprints that list it -/

/-- A load that succeeds leaves the state of its access. -/
theorem State.load_state {s t : State} {k : AccessKind} {a : Long} {sz : Size} {v : Long}
    (h : s.load k a sz = .ok (v, t)) : t = (s.access k a sz).2 := congrArg Prod.snd (State.load_ok h).2

/-- A store changes the device history at its end alone. -/
theorem State.ioLog_prefix_deposit (s : State) (a : Long) (sz : Size) (v : Long) :
    s.ioLog <+: (s.deposit a sz v).ioLog := by
  unfold State.deposit
  split
  · exact List.prefix_append ..
  · exact List.prefix_rfl

theorem State.ioLog_prefix_access (s : State) (k : AccessKind) (a : Long) (sz : Size) :
    s.ioLog <+: (s.access k a sz).2.ioLog := by
  unfold State.access
  split
  · exact List.prefix_append ..
  · exact List.prefix_rfl

theorem State.drawCount_le_access (s : State) (k : AccessKind) (a : Long) (sz : Size) :
    s.drawCount ≤ (s.access k a sz).2.drawCount := by
  unfold State.access
  split
  · exact Nat.le_succ _
  · exact Nat.le_refl _

section
variable {p : Footprint} {s t : State}

theorem State.Within.refl (p : Footprint) (s : State) : s.Within p s where
  dregs _ _ := rfl
  addresses := .refl s _
  bytes _ _ := rfl
  memWf := id
  srHigh := rfl
  flags := .refl _ _
  ioLog := List.prefix_rfl
  drawCount := Nat.le_refl _
  system := rfl

theorem State.Within.setD (h : s.Within p t) {x : RegNo} (hx : x ∈ p.dregs) (v : Long) : s.Within p (t.setD x v) :=
  { h with
    dregs := fun n hn => by
      rw [State.d_setD, if_neg fun he : x = n => hn (he ▸ hx), h.dregs n hn]
    addresses := h.addresses.congr rfl rfl rfl rfl }

theorem State.Within.setA (h : s.Within p t) {n : RegNo} (hn : n ∈ p.aregs) (v : Long) : s.Within p (t.setA n v) where
  dregs m hm := (State.d_setA ..).trans (h.dregs m hm)
  addresses := h.addresses.setA hn v
  bytes k hk := by rw [State.byteAt, State.setA_mem]; exact h.bytes k hk
  memWf hs := by rw [State.setA_mem]; exact h.memWf hs
  srHigh := by rw [State.setA_sr, h.srHigh]
  flags := by rw [State.ccr_setA]; exact h.flags
  ioLog := by rw [State.setA_ioLog]; exact h.ioLog
  drawCount := by rw [State.setA_drawCount]; exact h.drawCount
  system := (State.system_setA ..).trans h.system

theorem State.Within.setCcr (h : s.Within p t) {f : Ccr} (hf : p.flags.Keeps t.ccr f) : s.Within p (t.setCcr f) :=
  { h with
    addresses := h.addresses.congr rfl rfl rfl (State.onUsp_setCcr ..)
    srHigh := (State.setCcr_srHigh ..).trans h.srHigh
    flags := by rw [State.ccr_setCcr]; exact h.flags.trans hf }

/-- Using free values changes their count alone. -/
theorem State.Within.drawn (h : s.Within p t) (n : Nat) :
    s.Within p { t with drawCount := t.drawCount + n } :=
  { h with drawCount := h.drawCount.trans (Nat.le_add_right ..), addresses := h.addresses.congr rfl rfl rfl rfl }

theorem State.Within.atPc (h : s.Within p t) (pc : Long) : s.Within p (t.atPc pc) :=
  { h with addresses := h.addresses.congr rfl rfl rfl rfl }

theorem State.Within.done (h : s.Within p t) : s.Within p t.done := h.atPc t.cursor

theorem State.Within.access (h : s.Within p t) (k : AccessKind) (a : Long) (sz : Size) :
    s.Within p (t.access k a sz).2 where
  dregs m hm := (State.d_access ..).trans (h.dregs m hm)
  addresses := h.addresses.congr (State.access_aregs ..) (State.access_ssp ..) (State.access_usp ..)
    (State.onUsp_congr (State.access_sr ..) (State.access_cfg ..))
  bytes k hk := by rw [State.byteAt, State.access_mem]; exact h.bytes k hk
  memWf hs := by rw [State.access_mem]; exact h.memWf hs
  srHigh := by rw [State.access_sr, h.srHigh]
  flags := by rw [State.ccr_access]; exact h.flags
  ioLog := h.ioLog.trans (State.ioLog_prefix_access ..)
  drawCount := h.drawCount.trans (State.drawCount_le_access ..)
  system := (State.system_access ..).trans h.system

theorem State.Within.deposit (h : s.Within p t) {a : Long} {sz : Size} (v : Long)
    (ha : ∀ k ∈ spanAddrs a sz.bytes, ∃ q ∈ p.spans, k ∈ spanAddrs q.1 q.2) : s.Within p (t.deposit a sz v) where
  dregs m hm := (State.d_deposit ..).trans (h.dregs m hm)
  addresses := h.addresses.congr (State.deposit_aregs ..) (State.deposit_ssp ..) (State.deposit_usp ..)
    (State.onUsp_congr (State.deposit_sr ..) (State.deposit_cfg ..))
  bytes k hk := by
    have hout : k ∉ spanAddrs a sz.bytes := fun hin => by
      obtain ⟨q, hq, hkq⟩ := ha k hin
      exact hk q hq hkq
    rw [State.deposit_byteAt _ _ _ _ hout, h.bytes k hk]
  memWf hs := State.deposit_wf (h.memWf hs) ..
  srHigh := by rw [State.deposit_sr, h.srHigh]
  flags := by rw [State.ccr_deposit]; exact h.flags
  ioLog := h.ioLog.trans (State.ioLog_prefix_deposit ..)
  drawCount := by rw [State.deposit_drawCount]; exact h.drawCount
  system := (State.system_deposit ..).trans h.system

theorem State.Within.load (h : s.Within p t) {k : AccessKind} {a : Long} {sz : Size} {v : Long} {u : State}
    (hu : t.load k a sz = .ok (v, u)) : s.Within p u := by
  rw [State.load_state hu]
  exact h.access k a sz

/-- Resolving an operand changes at most the register of its auto mode. -/
theorem State.Within.autoUpdate (h : s.Within p t) (sz : Size) {e : Ea} (he : Ea.autoRegs e ⊆ p.aregs) :
    s.Within p (t.autoUpdate sz e) := by
  cases e with
  | postInc n | preDec n => exact h.setA (he List.mem_cons_self) _
  | _ => exact h

theorem State.Within.locValue (h : s.Within p t) (sz : Size) (l : Loc) : s.Within p (t.locValue sz l).2 := by
  cases l with
  | mem a => exact h.access .read a sz
  | _ => exact h

theorem State.Within.source (h : s.Within p t) (sz : Size) {e : Ea} (he : Ea.autoRegs e ⊆ p.aregs) :
    s.Within p (t.source sz e).2 := (h.autoUpdate sz he).locValue sz _

/-- The footprint lists what a write of the place that `e` names changes: its register or its span. -/
structure Footprint.HasPlace (p : Footprint) (u : State) (sz : Size) (e : Ea) : Prop where
  dregs : Ea.dregs e ⊆ p.dregs
  aregs : Ea.placeRegs e ⊆ p.aregs
  span : Loc.span sz.bytes (u.locate sz e) ⊆ p.spans

theorem Footprint.HasPlace.autoRegs {u : State} {sz : Size} {e : Ea} (h : p.HasPlace u sz e) :
    Ea.autoRegs e ⊆ p.aregs := by
  have hplace : Ea.autoRegs e ⊆ Ea.placeRegs e := by cases e <;> simp [Ea.autoRegs, Ea.placeRegs]
  exact List.Subset.trans hplace h.aregs

theorem State.Within.written (h : s.Within p t) {u : State} {sz : Size} {e : Ea} (hp : p.HasPlace u sz e) (v : Long) :
    s.Within p (t.written sz v (u.locate sz e)) := by
  obtain ⟨hd, ha, hm⟩ := hp
  have store : ∀ a, u.locate sz e = .mem a → s.Within p (t.written sz v (u.locate sz e)) := fun a hl => by
    rw [hl] at hm ⊢
    exact h.deposit v fun k hk => ⟨_, hm List.mem_cons_self, hk⟩
  cases e with
  | dn n => exact h.setD (hd List.mem_cons_self) _
  | an n => exact h.setA (ha List.mem_cons_self) _
  | immB _ | immW _ | immL _ => exact h
  | _ => exact store _ rfl

end

end Sys2Proof.Machine
end

section
/-! PROOFS. Outcomes that stay within a footprint: one rule per way an instruction reads, writes and ends (20_memory.md
R103 to R106; 10_state.md R36), and one per meaning that several instructions share. -/

namespace Sys2Proof.Machine

/-! ### The ways to read, write and end -/

/-- The state is within the footprint, or it is that of an exception raised in one that is. -/
inductive State.Reaches (p : Footprint) (s t : State) : Prop
  | within (h : s.Within p t)
  | raised (u : State) (k : ExcKind) (h : s.Within p u) (hr : u.raise k = .next t)

/-- Whatever state the outcome goes on with is reached within the footprint. -/
def State.Leads (p : Footprint) (s : State) (r : Result) : Prop := ∀ t, r = .next t → s.Reaches p t

section
variable {p : Footprint} {s u : State}

theorem State.Leads.of_next (h : s.Within p u) : s.Leads p (.next u) := by
  rintro t ht
  injection ht with ht
  exact .within (ht ▸ h)

theorem State.Leads.fault (f : Fault) : s.Leads p (.fault f) := fun _ h => by cases h

theorem State.Leads.refused (q : Refusal) : s.Leads p (.refused q) := fun _ h => by cases h

theorem State.Within.raise (h : s.Within p u) (k : ExcKind) : s.Leads p (u.raise k) :=
  fun _ ht => .raised u k h ht

theorem State.Within.commit (h : s.Within p u) : s.Leads p u.commit := .of_next h.done

theorem State.Within.commitCcr (h : s.Within p u) {f : Ccr} (hf : p.flags.Keeps u.ccr f) :
    s.Leads p (u.setCcr f).commit := (h.setCcr hf).commit

theorem State.Within.goto (h : s.Within p u) (pc : Long) : s.Leads p (u.goto pc) := .of_next (h.atPc pc)

theorem State.Within.finishD (h : s.Within p u) {x : RegNo} (v : Long) {f : Ccr} (hx : x ∈ p.dregs)
    (hf : p.flags.Keeps u.ccr f) : s.Leads p (u.finishD x v f) :=
  .of_next ((h.setD hx v).setCcr hf).done

/-- An instruction that ends by writing the place its operand names. -/
theorem State.Within.finish (h : s.Within p u) {w : State} {sz : Size} {e : Ea} (hp : p.HasPlace w sz e) (v : Long) {f : Ccr}
    (hf : p.flags.Keeps u.ccr f) : s.Leads p (u.finish (w.locate sz e) sz v f) := fun t ht => by
  obtain ⟨-, -, rfl⟩ := State.finish_next ht
  have hccr : (u.written sz v (w.locate sz e)).ccr = u.ccr := by cases e <;> simp [State.written]
  exact .within ((h.written hp v).setCcr (hccr ▸ hf)).done

/-- An instruction that reads a source and goes on in the state it leaves. -/
theorem State.Leads.withSource {sz : Size} {e : Ea} {k : Long → State → Result} (ha : Ea.autoRegs e ⊆ p.aregs)
    (hk : s.Within p (s.source sz e).2 → s.Leads p (k (s.source sz e).1 (s.source sz e).2)) :
    s.Leads p (s.withSource sz e k) := fun _ ht =>
  hk ((State.Within.refl p s).source sz ha) _ (State.withSource_next ht).2

/-- An instruction that reads a place and goes on with it. -/
theorem State.Leads.withTarget {sz : Size} {e : Ea} {k : Loc → Long → State → Result} (ha : Ea.autoRegs e ⊆ p.aregs)
    (hk : s.Within p (s.source sz e).2 →
      s.Leads p (k (s.locate sz e) (s.source sz e).1 (s.source sz e).2)) :
    s.Leads p (s.withTarget sz e k) := State.Leads.withSource (k := k (s.locate sz e)) ha hk

/-- An instruction that goes on with the address of its operand. -/
theorem State.Leads.withAddress {sz : Size} {e : Ea} {k : Long → State → Result} (ha : Ea.autoRegs e ⊆ p.aregs)
    (hk : ∀ a, s.locate sz e = .mem a → s.Within p (s.autoUpdate sz e) → s.Leads p (k a (s.autoUpdate sz e))) :
    s.Leads p (s.withAddress sz e k) := fun _ ht => by
  obtain ⟨a, hl, ht⟩ := State.withAddress_next ht
  exact hk a hl ((State.Within.refl p s).autoUpdate sz ha) _ ht

/-- An instruction that pushes a long word. -/
theorem State.Within.push (h : s.Within p u) (h7 : 7 ∈ p.aregs) (hm : (u.a 7 - 4, 4) ∈ p.spans) {v : Long}
    {k : State → Result} (hk : ∀ w, s.Within p w → s.Leads p (k w)) : s.Leads p (withState (u.push v) k) :=
  fun _ ht => by
    obtain ⟨-, ht⟩ := State.withState_push_next ht
    exact hk _ ((h.setA h7 _).deposit v fun _ hk => ⟨_, hm, hk⟩) _ ht

/-- An instruction that pulls a long word. -/
theorem State.Within.pull (h : s.Within p u) (h7 : 7 ∈ p.aregs) {k : Long → State → Result}
    (hk : ∀ v w, s.Within p w → s.Leads p (k v w)) : s.Leads p (withValue u.pull k) := fun _ ht => by
  obtain ⟨v, w, hp, ht⟩ := withValue_next ht
  obtain ⟨-, -, rfl⟩ := State.pull_ok hp
  exact hk v _ ((h.access .read _ .l).setA h7 _) _ ht

theorem State.Leads.privileged {r : Result} (h : s.Leads p r) : s.Leads p (s.privileged r) := fun t ht => by
  obtain ⟨-, ht⟩ | ⟨-, ht⟩ := State.privileged_next ht
  · exact h t ht
  · exact .raised s .privilegeViolation (.refl p s) ht

theorem State.Leads.ite {c : Prop} [Decidable c] {q r : Result} (hq : s.Leads p q) (hr : s.Leads p r) :
    s.Leads p (if c then q else r) := by
  split
  · exact hq
  · exact hr

/-! ### The shared meanings of the instructions -/

theorem State.Leads.sourceToD {sz : Size} {e : Ea} {x : RegNo} {g : Long → State → Long} {f : Long → State → Ccr}
    (ha : Ea.autoRegs e ⊆ p.aregs) (hx : x ∈ p.dregs) (hf : ∀ v w, p.flags.Keeps (State.ccr w) (f v w)) :
    s.Leads p (s.withSource sz e fun v w => w.finishD x (g v w) (f v w)) :=
  .withSource ha fun h => h.finishD _ hx (hf _ _)

theorem State.Leads.sourceToA {sz : Size} {e : Ea} {x : RegNo} {g : Long → State → Long}
    (ha : Ea.autoRegs e ⊆ p.aregs) (hx : x ∈ p.aregs) :
    s.Leads p (s.withSource sz e fun v w => (w.setA x (g v w)).commit) :=
  .withSource ha fun h => (h.setA hx _).commit

theorem State.Leads.sourceToCcr {sz : Size} {e : Ea} {f : Long → State → Ccr}
    (ha : Ea.autoRegs e ⊆ p.aregs) (hf : ∀ v w, p.flags.Keeps (State.ccr w) (f v w)) :
    s.Leads p (s.withSource sz e fun v w => (w.setCcr (f v w)).commit) :=
  .withSource ha fun h => (h.setCcr (hf _ _)).commit

/-- An operand read and written at one place. -/
theorem State.Leads.targetToPlace {sz : Size} {e : Ea} {g : Long → State → Long} {f : Long → State → Ccr}
    (hp : p.HasPlace s sz e) (hf : ∀ v w, p.flags.Keeps (State.ccr w) (f v w)) :
    s.Leads p (s.withTarget sz e fun loc v w => w.finish loc sz (g v w) (f v w)) :=
  .withTarget hp.autoRegs fun h => h.finish hp _ (hf _ _)

/-- A place that is written without a read. -/
theorem State.Leads.toPlace {sz : Size} {e : Ea} {v : Long} {f : State → Ccr} (hp : p.HasPlace s sz e)
    (hf : ∀ w, p.flags.Keeps (State.ccr w) (f w)) :
    s.Leads p ((s.autoUpdate sz e).finish (s.locate sz e) sz v (f (s.autoUpdate sz e))) :=
  ((State.Within.refl p s).autoUpdate sz hp.autoRegs).finish hp v (hf _)

theorem State.Leads.moveData {sz : Size} {src dst : Ea} (hs : Ea.autoRegs src ⊆ p.aregs)
    (hp : p.HasPlace (s.source sz src).2 sz dst) (hf : ∀ v w, p.flags.Keeps (State.ccr w) (logicFlags sz v w.ccr)) :
    s.Leads p (s.moveData sz src dst) :=
  .withSource hs fun h => (h.autoUpdate sz hp.autoRegs).finish hp _ (hf _ _)

/-- MOVEM's stores are within the run of long words from the base. -/
theorem storeRegs_within {rs : List GReg} {a : Long} {t : State} (h : s.Within p u)
    (hm : ∀ k ∈ spanAddrs a (4 * rs.length), ∃ q ∈ p.spans, k ∈ spanAddrs q.1 q.2)
    (ht : storeRegs rs a u = .ok t) : s.Within p t := by
  induction rs generalizing a u with
  | nil => cases ht; exact h
  | cons r rs ih =>
    rw [storeRegs] at ht
    split at ht
    · cases ht
    next w hw =>
      obtain ⟨-, rfl⟩ := State.store_ok hw
      have hspan : ∀ i < 4 * (rs.length + 1), (a + BitVec.ofNat 32 i).toNat ∈ spanAddrs a (4 * (r :: rs).length) :=
        fun i hi => List.mem_map.mpr ⟨i, List.mem_range.mpr hi, rfl⟩
      refine ih (h.deposit _ fun k hk => hm k ?_) (fun k hk => hm k ?_) ht
      · obtain ⟨i, hi, rfl⟩ := List.mem_map.mp hk
        exact hspan i (Nat.lt_of_lt_of_le (List.mem_range.mp hi) (Nat.le_mul_of_pos_right 4 (Nat.succ_pos _)))
      · obtain ⟨i, hi, rfl⟩ := List.mem_map.mp hk
        have hi := List.mem_range.mp hi
        have hnext : a + 4 + BitVec.ofNat 32 i = a + BitVec.ofNat 32 (4 + i) := by
          rw [BitVec.ofNat_add, ← BitVec.add_assoc]
          rfl
        rw [hnext]
        exact hspan _ (by omega)

theorem State.Within.storeRegs (h : s.Within p u) {rs : List GReg} {a : Long}
    (hm : ∀ k ∈ spanAddrs a (4 * rs.length), ∃ q ∈ p.spans, k ∈ spanAddrs q.1 q.2) :
    s.Leads p (withState (storeRegs rs a u) State.commit) := fun _ ht => by
  obtain ⟨w, hw, ht⟩ := withState_next ht
  exact (storeRegs_within h hm hw).commit _ ht

/-- MOVEM's loads change the registers of the list. -/
theorem loadRegs_within {rs : List GReg} {a : Long} {t : State} (h : s.Within p u)
    (hd : ∀ n, GReg.d n ∈ rs → n ∈ p.dregs) (ha : ∀ n, GReg.a n ∈ rs → n ∈ p.aregs)
    (ht : loadRegs rs a u = .ok t) : s.Within p t := by
  induction rs generalizing a u with
  | nil => cases ht; exact h
  | cons r rs ih =>
    rw [loadRegs] at ht
    split at ht
    · cases ht
    next v w hw =>
      have hread : s.Within p w := h.load hw
      have hset : s.Within p (w.setReg r v) := by
        cases r with
        | d n => exact hread.setD (hd n List.mem_cons_self) v
        | a n => exact hread.setA (ha n List.mem_cons_self) v
      exact ih hset (fun n hn => hd n (List.mem_cons_of_mem _ hn)) (fun n hn => ha n (List.mem_cons_of_mem _ hn)) ht

theorem State.Within.loadRegs (h : s.Within p u) {rs : List GReg} {a : Long}
    (hd : ∀ n, GReg.d n ∈ rs → n ∈ p.dregs) (ha : ∀ n, GReg.a n ∈ rs → n ∈ p.aregs) :
    s.Leads p (withState (loadRegs rs a u) State.commit) := fun _ ht => by
  obtain ⟨w, hw, ht⟩ := withState_next ht
  exact (loadRegs_within h hd ha hw).commit _ ht

theorem mem_maskD {m : Word} {n : RegNo} (h : GReg.d n ∈ maskRegs m) : n ∈ maskD m :=
  List.mem_filterMap.mpr ⟨_, h, rfl⟩

theorem mem_maskA {m : Word} {n : RegNo} (h : GReg.a n ∈ maskRegs m) : n ∈ maskA m :=
  List.mem_filterMap.mpr ⟨_, h, rfl⟩

theorem State.Leads.shift {f : Long → Nat → Shifted} {c : Nat} {x : RegNo} (hx : x ∈ p.dregs)
    (hf : ∀ g, p.flags.Keeps s.ccr g) : s.Leads p (s.shift f c x) := (State.Within.refl p s).finishD _ hx (hf _)

/-- The bit routine changes Z, and the place its operand names unless it is a test. -/
theorem State.Leads.bitOp {op : BitOp} {n : Nat} {e : Ea} (ha : Ea.autoRegs e ⊆ p.aregs)
    (hf : ∀ z f, p.flags.Keeps f (zeroFlag z f))
    (hw : op ≠ .test → p.HasPlace s .b e) :
    s.Leads p (s.bitOp op n e) := by
  have onPlace : s.Leads p (s.withTarget .b e fun loc v w =>
      if op = .test then (w.setCcr (zeroFlag (!v.getLsbD (n % 8)) w.ccr)).commit
      else w.finish loc .b (op.apply v (n % 8)) (zeroFlag (!v.getLsbD (n % 8)) w.ccr)) := by
    refine .withTarget ha fun h => ?_
    split
    · exact (h.setCcr (hf _ _)).commit
    next hop => exact h.finish (hw hop) _ (hf _ _)
  cases e with
  | dn x =>
    cases op with
    | test =>
      have hsame : s.setD x (s.d x) = s := by
        simp [State.setD, State.d]
      intro t ht
      have ht := State.finishD_next ht
      rw [BitOp.apply, hsame] at ht
      exact .within (ht ▸ ((State.Within.refl p s).setCcr (hf _ _)).done)
    | _ => exact (State.Within.refl p s).finishD _ ((hw (by simp)).dregs List.mem_cons_self) (hf _ _)
  | _ => exact onPlace

/-- A bit operation that may write its place. -/
theorem State.Leads.bitWrite {op : BitOp} {n : Nat} {e : Ea} (hp : p.HasPlace s .b e)
    (hf : ∀ z f, p.flags.Keeps f (zeroFlag z f)) : s.Leads p (s.bitOp op n e) :=
  .bitOp hp.autoRegs hf fun _ => hp

theorem State.Within.drawNZ (h : s.Within p u) {v c : Bool}
    (hf : ∀ n z, p.flags.Keeps u.ccr { x := u.ccr.x, n, z, v, c }) : s.Within p (u.drawNZ v c) :=
  (h.drawn 2).setCcr (hf _ _)

theorem State.Within.drawNZV (h : s.Within p u)
    (hf : ∀ n z v, p.flags.Keeps u.ccr { x := u.ccr.x, n, z, v, c := false }) : s.Within p u.drawNZV :=
  (h.drawn 3).setCcr (hf _ _ _)

theorem State.Within.drawAuto (h : s.Within p u) (before : State) {e : Ea} (ha : Ea.autoRegs e ⊆ p.aregs) :
    s.Within p (u.drawAuto before e) := by
  cases e with
  | postInc n | preDec n =>
    simp only [State.drawAuto]
    split
    · exact (h.drawn 1).setA (ha List.mem_cons_self) _
    · exact h.drawn 1
  | _ => exact h

/-- A divide reads its divisor, and by 0 raises an exception with the flags and the auto register drawn. -/
theorem State.Leads.withDivisor {sz : Size} {e : Ea} {k : Long → State → Result} (ha : Ea.autoRegs e ⊆ p.aregs)
    (hf : ∀ f n z v, p.flags.Keeps f { x := f.x, n, z, v, c := false })
    (hk : ∀ v w, s.Within p w → s.Leads p (k v w)) : s.Leads p (s.withDivisor sz e k) := by
  refine .withSource ha fun h => ?_
  split
  · exact ((h.drawNZV (hf _)).drawAuto s ha).raise .divideByZero
  · exact hk _ _ h

end

end Sys2Proof.Machine
end

section
/-! PROOFS. Every instruction but the six that write a part of the system stays within the footprint of its row and
operands (files 41 to 46). -/

namespace Sys2Proof.Machine

/-! ### What each instruction may change -/

/-- The condition codes a row may change (10 R55; the Flags lines of files 41 to 46). -/
def rowFlags : Op → FlagSet
  | .moveaW | .moveaL | .movemToMem | .movemToRegs | .lea | .pea | .link | .unlk | .adda | .suba => .none
  | .bitrev | .byterev | .bccB | .bccW | .bccL | .braB | .braW | .braL | .bsrB | .bsrW | .bsrL => .none
  | .jmp | .jsr | .rts | .scc | .tpf | .tpfW | .tpfL | .nop | .trap | .illegal | .moveFromSr => .none
  | .moveFromCcr | .moveToUsp | .moveFromUsp | .movec | .halt | .pulse => .none
  | .btstReg | .btstImm | .bchgReg | .bchgImm | .bclrReg | .bclrImm | .bsetReg | .bsetImm => .z
  | .addEaDn | .addDnEa | .addi | .addq | .addx | .subEaDn | .subDnEa | .subi | .subq | .subx => .all
  | .neg | .negx | .aslImm | .aslReg | .asrImm | .asrReg | .lslImm | .lslReg | .lsrImm | .lsrReg => .all
  | .moveToSr | .moveToCcr | .rte | .stop => .all
  | _ => .allButX

/-- The set of a row is the one that the predicates of the statements give it. -/
theorem rowFlags_eq (op : Op) : rowFlags op =
    if keepsFlags op then .none else if writesZOnly op then .z else if writesX op then .all else .allButX := by
  cases op <;> decide +kernel

/-- The condition codes an instruction may change: none for ADDQ and SUBQ to an address register (42 R254, R260). -/
def Instr.flagSet : Instr → FlagSet
  | .addq _ (.an _) | .subq _ (.an _) => .none
  | i => rowFlags i.op

/-- What an instruction may change in a state, by its row and operands. -/
def Instr.footprint (i : Instr) (s : State) : Footprint where
  dregs := Instr.writesD i
  aregs := Instr.writesA i
  spans := Instr.stores i s
  flags := Instr.flagSet i

/-- The instructions that write a part of the state no footprint has: SR, the run state, a control register or the
user stack pointer. -/
def writesSystem (op : Op) : Bool := [.moveToSr, .rte, .stop, .halt, .movec, .moveToUsp].contains op

theorem FlagSet.keeps_of_all {m : FlagSet} (h : m = .all) (f g : Ccr) : m.Keeps f g := by rw [h]; trivial

theorem flagSet_addq_place (q : BitVec 3) {dst : Ea} (h : ∀ n, dst ≠ .an n) : Instr.flagSet (.addq q dst) = .all := by
  cases dst with
  | an n => exact absurd rfl (h n)
  | _ => rfl

theorem flagSet_subq_place (q : BitVec 3) {dst : Ea} (h : ∀ n, dst ≠ .an n) : Instr.flagSet (.subq q dst) = .all := by
  cases dst with
  | an n => exact absurd rfl (h n)
  | _ => rfl

/-- ADDQ to a place that is no address register adds to the operand read there (42 R254). -/
theorem exec_addq_place (s : State) (q : BitVec 3) {dst : Ea} (h : ∀ n, dst ≠ .an n) :
    exec (.addq q dst) s = s.withTarget .l dst fun loc d w =>
      let v : Long := BitVec.ofNat 32 (quickValue q)
      w.finish loc .l (d + v) (addFlags .l d v (d + v) false w.ccr) := by
  cases dst with
  | an n => exact absurd rfl (h n)
  | _ => rfl

theorem exec_subq_place (s : State) (q : BitVec 3) {dst : Ea} (h : ∀ n, dst ≠ .an n) :
    exec (.subq q dst) s = s.withTarget .l dst fun loc d w =>
      let v : Long := BitVec.ofNat 32 (quickValue q)
      w.finish loc .l (d - v) (subFlags .l d v (d - v) false w.ccr) := by
  cases dst with
  | an n => exact absurd rfl (h n)
  | _ => rfl

/-- Each instruction by the rule of its meaning; the lists of its footprint come from its layout. -/
theorem exec_leads (i : Instr) (s : State) (h : writesSystem i.op = false) : s.Leads (Instr.footprint i s) (exec i s) := by
  have start (p : Footprint) : s.Within p s := .refl p s
  cases i with
  | moveB src dst | moveW src dst | moveL src dst =>
    exact .moveData (List.subset_append_left _ _)
      ⟨List.Subset.refl _, List.subset_append_right _ _, List.Subset.refl _⟩ fun _ _ => rfl
  | moveaW src x | moveaL src x | adda src x | suba src x =>
    exact .sourceToA (List.subset_append_left _ _) (List.mem_append_right _ List.mem_cons_self)
  | moveq d x => exact (start _).finishD _ List.mem_cons_self rfl
  | mov3q q dst =>
    refine .toPlace ⟨List.Subset.refl _, List.Subset.refl _, List.Subset.refl _⟩ (f := fun w =>
      if Ea.isAn dst && !w.cfg.mov3qAnFlags then w.ccr else logicFlags .l (mov3qValue q) w.ccr) fun w => ?_
    show Ccr.x (ite _ _ _) = w.ccr.x
    split <;> rfl
  | mvsB src x | mvsW src x | mvzB src x | mvzW src x | andEaDn src x | orEaDn src x | muluW src x | mulsW src x =>
    exact .sourceToD (List.subset_append_left _ _) List.mem_cons_self fun _ _ => rfl
  | muluL src x | mulsL src x =>
    exact .sourceToD (List.Subset.refl _) List.mem_cons_self fun _ _ => rfl
  | addEaDn src x | subEaDn src x =>
    exact .sourceToD (List.subset_append_left _ _) List.mem_cons_self fun _ _ => trivial
  | movemToMem mask dst =>
    refine .withAddress (List.Subset.refl _) fun a hl h => h.storeRegs fun k hk => ⟨_, List.mem_cons_self, ?_⟩
    have hbase : s.address .l dst = a := by rw [State.address, hl]
    rw [hbase]
    exact hk
  | movemToRegs src mask =>
    exact .withAddress (List.subset_append_left _ _) fun a _ h =>
      h.loadRegs (fun _ hn => mem_maskD hn) fun _ hn => List.mem_append_right _ (mem_maskA hn)
  | lea src x =>
    exact .withAddress (List.subset_append_left _ _) fun a _ h =>
      (h.setA (List.mem_append_right _ List.mem_cons_self) _).commit
  | pea e =>
    exact .withAddress (List.subset_append_left _ _) fun a _ h =>
      h.push (List.mem_append_right _ List.mem_cons_self) List.mem_cons_self fun _ hw => hw.commit
  | jsr e =>
    exact .withAddress (List.subset_append_left _ _) fun a _ h =>
      h.push (List.mem_append_right _ List.mem_cons_self) List.mem_cons_self fun _ hw => hw.goto a
  | jmp e => exact .withAddress (List.subset_append_left _ _) fun a _ h => h.goto a
  | link y d =>
    exact .ite (.refused _) ((start _).push (List.mem_cons_of_mem _ List.mem_cons_self) List.mem_cons_self
      fun w hw => ((hw.setA List.mem_cons_self _).setA (List.mem_cons_of_mem _ List.mem_cons_self) _).commit)
  | unlk r =>
    exact .ite (.refused _) (((start _).setA (List.mem_cons_of_mem _ List.mem_cons_self) _).pull
      (List.mem_cons_of_mem _ List.mem_cons_self) fun _ _ hw => (hw.setA List.mem_cons_self _).commit)
  | clrB e | clrW e | clrL e =>
    exact .toPlace ⟨List.Subset.refl _, List.Subset.refl _, List.Subset.refl _⟩
      (f := fun w => { x := w.ccr.x, n := false, z := true, v := false, c := false }) fun _ => rfl
  | swap r | extL r | extbL r | sats r | notL r | ff1 r => exact (start _).finishD _ List.mem_cons_self rfl
  | neg r | negx r => exact (start _).finishD _ List.mem_cons_self trivial
  | extW r => exact ((start _).setD List.mem_cons_self _).commitCcr rfl
  | addDnEa y dst | subDnEa y dst =>
    exact .targetToPlace ⟨List.Subset.refl _, List.Subset.refl _, List.Subset.refl _⟩ fun _ _ => trivial
  | andDnEa y dst | orDnEa y dst | eor y dst =>
    exact .targetToPlace ⟨List.Subset.refl _, List.Subset.refl _, List.Subset.refl _⟩ fun _ _ => rfl
  | addi v x | subi v x | addx y x | subx y x => exact (start _).finishD _ List.mem_cons_self trivial
  | andi v x | ori v x | eori v x => exact (start _).finishD _ List.mem_cons_self rfl
  | addq q dst =>
    by_cases hdst : ∃ n, dst = .an n
    · obtain ⟨n, rfl⟩ := hdst
      exact ((start _).setA List.mem_cons_self _).commit
    · rw [exec_addq_place s q fun n hn => hdst ⟨n, hn⟩]
      exact .targetToPlace ⟨List.Subset.refl _, List.Subset.refl _, List.Subset.refl _⟩ fun _ _ =>
        FlagSet.keeps_of_all (flagSet_addq_place q fun n hn => hdst ⟨n, hn⟩) _ _
  | subq q dst =>
    by_cases hdst : ∃ n, dst = .an n
    · obtain ⟨n, rfl⟩ := hdst
      exact ((start _).setA List.mem_cons_self _).commit
    · rw [exec_subq_place s q fun n hn => hdst ⟨n, hn⟩]
      exact .targetToPlace ⟨List.Subset.refl _, List.Subset.refl _, List.Subset.refl _⟩ fun _ _ =>
        FlagSet.keeps_of_all (flagSet_subq_place q fun n hn => hdst ⟨n, hn⟩) _ _
  | cmpB src x | cmpW src x | cmpL src x | cmpaW src x | cmpaL src x =>
    exact .sourceToCcr (List.subset_append_left _ _) fun _ _ => rfl
  | cmpiB v x | cmpiW v x | cmpiL v x => exact (start _).commitCcr rfl
  | tstB e | tstW e | tstL e => exact .sourceToCcr (List.subset_append_left _ _) fun _ _ => rfl
  | moveToCcr e => exact .sourceToCcr (List.subset_append_left _ _) fun _ _ => trivial
  | divuW src x | divsW src x =>
    exact .withDivisor (List.subset_append_left _ _) (fun _ _ _ _ => rfl) fun v w h =>
      .ite (h.drawNZ fun _ _ => rfl).commit (h.finishD _ List.mem_cons_self rfl)
  | divuL src x =>
    exact .withDivisor (List.Subset.refl _) (fun _ _ _ _ => rfl) fun v w h => h.finishD _ List.mem_cons_self rfl
  | divsL src x =>
    exact .withDivisor (List.Subset.refl _) (fun _ _ _ _ => rfl) fun v w h =>
      .ite (h.drawNZ fun _ _ => rfl).commit (h.finishD _ List.mem_cons_self rfl)
  | remuL src r x =>
    exact .withDivisor (List.Subset.refl _) (fun _ _ _ _ => rfl) fun v w h =>
      ((h.setD List.mem_cons_self _).drawNZ fun _ _ => rfl).commit
  | remsL src r x =>
    exact .withDivisor (List.Subset.refl _) (fun _ _ _ _ => rfl) fun v w h =>
      .ite (((h.drawn 1).setD List.mem_cons_self _).drawNZV fun _ _ _ => rfl).commit
        ((h.setD List.mem_cons_self _).drawNZ fun _ _ => rfl).commit
  | aslImm c x | aslReg y x | asrImm c x | asrReg y x | lslImm c x | lslReg y x | lsrImm c x | lsrReg y x =>
    exact .shift List.mem_cons_self fun _ => trivial
  | btstReg y dst | btstImm n dst =>
    exact .bitOp (List.Subset.refl _) (fun _ _ => rfl) fun hop => absurd rfl hop
  | bchgReg y dst | bchgImm n dst | bclrReg y dst | bclrImm n dst | bsetReg y dst | bsetImm n dst =>
    exact .bitWrite ⟨List.Subset.refl _, List.Subset.refl _, List.Subset.refl _⟩ fun _ _ => rfl
  | bitrev r | byterev r => exact ((start _).setD List.mem_cons_self _).commit
  | scc c x => exact ((start _).setD List.mem_cons_self _).commit
  | tas e =>
    exact .targetToPlace ⟨List.Subset.refl _, List.Subset.refl _, List.Subset.refl _⟩ fun _ _ => rfl
  | bccB c d | bccW c d | bccL c d => exact .ite ((start _).goto _) (start _).commit
  | braB d | braW d | braL d => exact (start _).goto _
  | bsrB d | bsrW d | bsrL d =>
    exact (start _).push List.mem_cons_self List.mem_cons_self fun _ hw => hw.goto _
  | rts => exact (start _).pull List.mem_cons_self fun _ _ hw => hw.goto _
  | tpf | tpfW v | tpfL v | nop | pulse => exact (start _).commit
  | trap v | illegal => exact (start _).raise _
  | moveFromSr r => exact .privileged ((start _).setD List.mem_cons_self _).commit
  | moveFromCcr r => exact ((start _).setD List.mem_cons_self _).commit
  | moveFromUsp r => exact .privileged ((start _).setA List.mem_cons_self _).commit
  | strldsr w v | cpushlDc r | cpushlIc r | cpushlBc r | intouch r | wdebug w e => exact .privileged (.refused _)
  | wddataB e | wddataW e | wddataL e => exact .refused _
  | moveToSr e | rte | stop v | halt | movec r c | moveToUsp r => cases h

end Sys2Proof.Machine
end

section
/-! PROOFS. The effect of every instruction, the six that write a part of the system among them, and the frames that
follow from it: registers, memory, flags and the system part (10_state.md R55; files 41 to 46). -/

namespace Sys2Proof.Machine

/-! ### The six instructions that write a part of the system (46 R392, R395, R397 to R400) -/

/-- What an instruction can do: stay within its footprint, raise an exception within it, or, for the six that write a
part of the system, change that part besides. -/
inductive Instr.Effect (i : Instr) (s t : State) : Prop
  | within (h : s.Within (Instr.footprint i s) t)
  | raised (u : State) (k : ExcKind) (h : s.Within (Instr.footprint i s) u) (hr : u.raise k = .next t)
  | loadsSr (u : State) (v : Word) (r : RunState) (pc : Long) (hop : writesSr i.op = true) (hs : s.supervisor = true)
      (h : s.Within (Instr.footprint i s) u) (hr : i.op ≠ .stop → r = u.runState)
      (ht : t = { u.setSr v with runState := r, pc := pc })
  | halts (hop : i.op = .halt) (ht : t = State.done { s with runState := .halted })
  | writesControl (code : BitVec 12) (v : Long) (hop : i.op = .movec) (ht : t = (s.setControl code v).done)
  | writesUserSp (v : Long) (hop : i.op = .moveToUsp) (ht : t = (s.setUserSp v).done)

section
variable {s t : State}

theorem Instr.Effect.of_reaches {i : Instr} (h : s.Reaches (Instr.footprint i s) t) : Instr.Effect i s t := by
  cases h with
  | within h => exact .within h
  | raised u k h hr => exact .raised u k h hr

/-- A privileged instruction has its effect in supervisor mode, and else raises an exception. -/
theorem Instr.Effect.of_privileged {i : Instr} {r : Result} (h : s.privileged r = .next t)
    (heff : s.supervisor = true → r = .next t → Instr.Effect i s t) : Instr.Effect i s t := by
  obtain ⟨hs, h⟩ | ⟨-, h⟩ := State.privileged_next h
  · exact heff hs h
  · exact .raised s _ (.refl _ s) h

theorem exec_moveToSr_effect {e : Ea} (h : exec (.moveToSr e) s = .next t) : Instr.Effect (.moveToSr e) s t := by
  rw [exec_moveToSr] at h
  refine .of_privileged h fun hs h => ?_
  obtain ⟨-, h⟩ := State.withSource_next h
  exact .loadsSr _ _ _ _ rfl hs ((State.Within.refl _ s).source .w (List.subset_append_left _ _)) (fun _ => rfl)
    (State.commit_next h)

theorem exec_stop_effect {v : Word} (h : exec (.stop v) s = .next t) : Instr.Effect (.stop v) s t := by
  rw [exec_stop] at h
  exact .of_privileged h fun hs h => .loadsSr s v .stopped s.cursor rfl hs (.refl _ s) (fun hop => absurd rfl hop)
    (State.commit_next h)

theorem exec_rte_effect (h : exec .rte s = .next t) : Instr.Effect .rte s t := by
  rw [exec_rte] at h
  refine .of_privileged h fun hs h => ?_
  have read : s.Within (Instr.footprint .rte s) ((s.access .read (s.a 7) .l).2.access .read (s.a 7 + 4) .l).2 :=
    ((State.Within.refl _ s).access ..).access ..
  obtain ⟨-, -, ⟨-, ht⟩ | ⟨-, h⟩⟩ := State.returnFromException_next h
  · exact .loadsSr _ _ _ _ rfl hs (read.setA List.mem_cons_self _) (fun _ => rfl) ht
  · exact .raised _ _ read h

theorem exec_halt_effect (h : exec .halt s = .next t) : Instr.Effect .halt s t := by
  change (if s.cfg.userHalt then _ else s.privileged _) = _ at h
  split at h
  · exact .halts rfl (State.commit_next h)
  · exact .of_privileged h fun _ h => .halts rfl (State.commit_next h)

theorem exec_movec (r : GReg) (code : BitVec 12) (s : State) :
    exec (.movec r code) s = s.privileged
      (if code ∈ s.cfg.controlRegs then (s.setControl code (s.reg r)).commit
       else s.refuse (.unknownControlRegister code)) := by rfl

theorem exec_movec_effect {r : GReg} {code : BitVec 12} (h : exec (.movec r code) s = .next t) :
    Instr.Effect (.movec r code) s t := by
  rw [exec_movec] at h
  refine .of_privileged h fun _ h => ?_
  split at h
  · exact .writesControl code _ rfl (State.commit_next h)
  · cases h

theorem exec_moveToUsp (r : RegNo) (s : State) :
    exec (.moveToUsp r) s = s.privileged (s.setUserSp (s.a r)).commit := by rfl

theorem exec_moveToUsp_effect {r : RegNo} (h : exec (.moveToUsp r) s = .next t) :
    Instr.Effect (.moveToUsp r) s t := by
  rw [exec_moveToUsp] at h
  exact .of_privileged h fun _ h => .writesUserSp _ rfl (State.commit_next h)

/-- Every instruction that goes on has one of the effects. -/
theorem exec_effect {i : Instr} (h : exec i s = .next t) : Instr.Effect i s t := by
  by_cases hsys : writesSystem i.op = false
  · exact .of_reaches (exec_leads i s hsys t h)
  · cases i with
    | moveToSr e => exact exec_moveToSr_effect h
    | rte => exact exec_rte_effect h
    | stop v => exact exec_stop_effect h
    | halt => exact exec_halt_effect h
    | movec r code => exact exec_movec_effect h
    | moveToUsp r => exact exec_moveToUsp_effect h
    | _ => exact absurd rfl hsys

/-! ### The frames (files 41 to 46) -/

/-- An address register below A7 is no stack pointer. -/
theorem State.a_congr_of_ne_seven (h : t.aregs = s.aregs) {n : RegNo} (hn : n ≠ 7) : t.a n = s.a n := by
  have hlt : n.toNat < 7 := by bv_omega
  simp [State.a, hlt, h]

/-- A control register is no general register and no flag, and memory stays. -/
theorem State.setControl_frame (s : State) (code : BitVec 12) (v : Long) :
    ∃ vbr ctrl ssp usp, s.setControl code v = { s with vbr := vbr, ctrl := ctrl, ssp := ssp, usp := usp } := by
  unfold State.setControl State.setUserSp
  split
  · exact ⟨_, s.ctrl, s.ssp, s.usp, rfl⟩
  split
  · split
    · exact ⟨s.vbr, s.ctrl, s.ssp, _, rfl⟩
    · exact ⟨s.vbr, s.ctrl, _, s.usp, rfl⟩
  · exact ⟨s.vbr, _, s.ssp, s.usp, rfl⟩

theorem State.setControl_d (s : State) (code : BitVec 12) (v : Long) (n : RegNo) : (s.setControl code v).d n = s.d n := by
  obtain ⟨_, _, _, _, hset⟩ := s.setControl_frame code v
  rw [hset]
  rfl

theorem State.setControl_a (s : State) (code : BitVec 12) (v : Long) {n : RegNo} (hn : n ≠ 7) :
    (s.setControl code v).a n = s.a n := by
  obtain ⟨_, _, _, _, hset⟩ := s.setControl_frame code v
  exact State.a_congr_of_ne_seven (by rw [hset]) hn

theorem State.setUserSp_d (s : State) (v : Long) (n : RegNo) : (s.setUserSp v).d n = s.d n :=
  State.d_congr (State.setUserSp_dregs s v) n

theorem State.setUserSp_a (s : State) (v : Long) {n : RegNo} (hn : n ≠ 7) : (s.setUserSp v).a n = s.a n :=
  State.a_congr_of_ne_seven (State.setUserSp_aregs s v) hn

/-- Settles O32: the footprint bounds the registers; SR, the run state and a control register are none, and MOVE to USP
changes a stack pointer alone. -/
theorem registerFrame : Obligations.RegisterFrame := by
  intro i s t _ hexec hnone
  obtain h | ⟨u, k, -, hr⟩ | ⟨u, v, r, pc, -, -, h, -, rfl⟩ | ⟨-, rfl⟩ | ⟨code, v, hop, rfl⟩ | ⟨v, hop, rfl⟩ :=
    exec_effect hexec
  · exact ⟨h.dregs, fun n _ hn => h.addresses.others n hn, fun _ _ => h.addresses.pointers,
      fun _ _ => h.addresses.inactive⟩
  · exact absurd hnone (by simp [State.raise_afterException hr])
  · exact ⟨h.dregs, fun n h7 hn =>
        (State.a_congr_of_ne_seven (s := u) (t := { u.setSr v with runState := r, pc := pc }) rfl h7).trans
          (h.addresses.others n hn),
      fun _ _ => h.addresses.pointers, fun _ _ => h.addresses.inactive⟩
  · exact ⟨fun _ _ => rfl, fun _ _ _ => rfl, fun _ _ _ => ⟨rfl, rfl⟩, fun _ _ => by split <;> rfl⟩
  · exact ⟨fun _ _ => s.setControl_d code v _, fun n h7 _ => s.setControl_a code v h7, fun _ hne => absurd hop hne,
      fun _ hne => absurd hop hne⟩
  · exact ⟨fun _ _ => s.setUserSp_d v _, fun n h7 _ => s.setUserSp_a v h7, fun hne => absurd hop hne,
      fun hne => absurd hop hne⟩

/-- Settles O33: the footprint bounds the bytes; what the six instructions write besides is not in memory. -/
theorem memoryFrame : Obligations.MemoryFrame := by
  intro i s t _ hexec hnone k hk
  obtain h | ⟨u, x, -, hr⟩ | ⟨u, v, r, pc, -, -, h, -, rfl⟩ | ⟨-, rfl⟩ | ⟨code, v, -, rfl⟩ | ⟨v, -, rfl⟩ :=
    exec_effect hexec
  · exact h.bytes k hk
  · exact absurd hnone (by simp [State.raise_afterException hr])
  · exact h.bytes k hk
  · rfl
  · obtain ⟨vbr, ctrl, ssp, usp, hset⟩ := s.setControl_frame code v
    rw [hset]
    rfl
  · exact congrArg (fun m => Sparse.get (w := 8) m k) (State.setUserSp_mem s v)

/-- Taking an exception keeps the condition codes (60 R434). -/
theorem State.raise_ccr {k : ExcKind} (h : s.raise k = .next t) : t.ccr = s.ccr := by
  obtain ⟨-, -, -, rfl⟩ := State.enter_next h
  have hsr : ∀ u : State, u.sr = entrySr s.sr k.level → u.ccr = s.ccr := fun u hu => by
    rw [State.ccr, hu, entrySr_ccr, State.ccr]
  exact hsr _ (by simp [State.atPc])

/-- What the flag set of an instruction says of the rows O34 names. -/
theorem Instr.flagSet_keeps {i : Instr} {f g : Ccr} (h : (Instr.flagSet i).Keeps f g) :
    (keepsFlags i.op = true → g = f) ∧ (writesZOnly i.op = true → g = { f with z := g.z }) ∧
      (writesX i.op = false → g.x = f.x) ∧ (∀ q n, i = .addq q (.an n) ∨ i = .subq q (.an n) → g = f) := by
  unfold Instr.flagSet at h
  split at h
  case h_3 hadd hsub =>
    have other : ∀ q n, i = .addq q (.an n) ∨ i = .subq q (.an n) → g = f := fun q n hi =>
      hi.elim (fun he => absurd he (hadd q n)) fun he => absurd he (hsub q n)
    rw [rowFlags_eq] at h
    split at h
    next => exact ⟨fun _ => h, fun _ => h ▸ rfl, fun _ => h ▸ rfl, other⟩
    split at h
    next hk _ =>
      have hz : g = { f with z := g.z } := h
      exact ⟨fun hk' => absurd hk' hk, fun _ => hz, fun _ => (congrArg Ccr.x hz).trans rfl, other⟩
    split at h
    next hk hz hx =>
      exact ⟨fun hk' => absurd hk' hk, fun hz' => absurd hz' hz, fun hx' => by simp [hx] at hx', other⟩
    next hk hz _ => exact ⟨fun hk' => absurd hk' hk, fun hz' => absurd hz' hz, fun _ => h, other⟩
  all_goals
    obtain rfl : g = f := h
    exact ⟨fun _ => rfl, fun _ => rfl, fun _ => rfl, fun _ _ _ => rfl⟩

theorem flags_of_writesSr {op : Op} (h : writesSr op = true) :
    keepsFlags op = false ∧ writesZOnly op = false ∧ writesX op = true := by
  have hop : op = .moveToSr ∨ op = .rte ∨ op = .stop := by simpa [writesSr] using h
  obtain rfl | rfl | rfl := hop <;> decide

/-- Settles O34: the footprint bounds the flags, and taking an exception keeps them. -/
theorem flagFrame : Obligations.FlagFrame := by
  intro i s t hexec
  obtain h | ⟨u, k, h, hr⟩ | ⟨u, v, r, pc, hop, -, -, -, -⟩ | ⟨-, rfl⟩ | ⟨code, v, -, rfl⟩ | ⟨v, -, rfl⟩ :=
    exec_effect hexec
  · exact Instr.flagSet_keeps h.flags
  · exact Instr.flagSet_keeps (State.raise_ccr hr ▸ h.flags)
  · obtain ⟨hkeeps, hz, hx⟩ := flags_of_writesSr hop
    refine ⟨fun h => ?_, fun h => ?_, fun h => ?_, ?_⟩
    · simp [hkeeps] at h
    · simp [hz] at h
    · simp [hx] at h
    · rintro q n (rfl | rfl) <;> cases hop
  · exact Instr.flagSet_keeps (.refl _ _)
  · obtain ⟨vbr, ctrl, ssp, usp, hset⟩ := s.setControl_frame code v
    rw [hset]
    exact Instr.flagSet_keeps (.refl _ _)
  · have hccr : (s.setUserSp v).done.ccr = s.ccr := State.ccr_congr (State.setUserSp_sr s v)
    exact Instr.flagSet_keeps (hccr ▸ .refl _ _)

/-- Settles O35: the footprint bounds SR[15:5] and the system part; each of the six instructions writes what the
statement excepts for it. -/
theorem systemFrame : Obligations.SystemFrame := by
  intro i s t _ hexec hnone
  obtain h | ⟨u, x, -, hr⟩ | ⟨u, v, r, pc, hop, -, h, hstop, rfl⟩ | ⟨hop, rfl⟩ | ⟨code, v, hop, rfl⟩ | ⟨v, hop, rfl⟩ :=
    exec_effect hexec
  · have kept {α : Type} (f : SystemPart → α) : f t.system = f s.system := congrArg f h.system
    exact ⟨kept (·.cfg), kept (·.fault), kept (·.refused), kept (·.ipl), kept (·.iplPrev), kept (·.cursor), h.ioLog,
      fun _ => ⟨kept (·.vbr), kept (·.ctrl)⟩, fun _ _ => kept (·.runState), fun _ => h.srHigh⟩
  · exact absurd hnone (by simp [State.raise_afterException hr])
  · have kept {α : Type} (f : SystemPart → α) : f u.system = f s.system := congrArg f h.system
    exact ⟨kept (·.cfg), kept (·.fault), kept (·.refused), kept (·.ipl), kept (·.iplPrev), kept (·.cursor), h.ioLog,
      fun _ => ⟨kept (·.vbr), kept (·.ctrl)⟩, fun hne _ => (hstop hne).trans (kept (·.runState)),
      fun hsr => by simp [hsr] at hop⟩
  · exact ⟨rfl, rfl, rfl, rfl, rfl, rfl, List.prefix_rfl, fun _ => ⟨rfl, rfl⟩, fun _ hne => absurd hop hne,
      fun _ => rfl⟩
  · obtain ⟨vbr, ctrl, ssp, usp, hset⟩ := s.setControl_frame code v
    rw [hset]
    exact ⟨rfl, rfl, rfl, rfl, rfl, rfl, List.prefix_rfl, fun hne => absurd hop hne, fun _ _ => rfl, fun _ => rfl⟩
  · simp [State.done, List.prefix_rfl]

end

end Sys2Proof.Machine
end

section
/-! PROOFS. One step (30_encoding.md R149): what it can do, the parameters and the invariant it keeps, and the one way into
supervisor mode. -/

namespace Sys2Proof.Machine

/-! ### What a step can do -/

/-- From `s` to `u` a step has read the request level and fetched words: nothing changes but the requests, the cursor,
the after-exception mark, and for a device the history and the draws. -/
structure State.Fetches (s u : State) : Prop where
  eq_with : u = { s with
    ipl := u.ipl
    iplPrev := u.iplPrev
    cursor := u.cursor
    afterException := u.afterException
    ioLog := u.ioLog
    drawCount := u.drawCount }
  ioLog : s.ioLog <+: u.ioLog
  drawCount : s.drawCount ≤ u.drawCount

theorem State.Fetches.refl (s : State) : s.Fetches s := ⟨rfl, List.prefix_rfl, Nat.le_refl _⟩

theorem State.Fetches.tick {s u : State} (h : s.Fetches u) : s.Fetches u.tick :=
  ⟨by rw [State.tick, h.eq_with], h.ioLog, h.drawCount⟩

/-- The cursor and the mark may be set while words are fetched. -/
theorem State.Fetches.moved {s u : State} (h : s.Fetches u) (cursor : Long) (mark : Bool) :
    s.Fetches { u with cursor := cursor, afterException := mark } :=
  ⟨by rw [h.eq_with], h.ioLog, h.drawCount⟩

theorem State.Fetches.load {s u w : State} (h : s.Fetches u) {k : AccessKind} {a : Long} {sz : Size} {v : Long}
    (hw : u.load k a sz = .ok (v, w)) : s.Fetches w := by
  rw [State.load_state hw]
  refine ⟨?_, h.ioLog.trans (State.ioLog_prefix_access ..), h.drawCount.trans (State.drawCount_le_access ..)⟩
  obtain ⟨l, d, ha⟩ := u.access_eq_with k a sz
  rw [ha, h.eq_with]

theorem State.Fetches.words {s u w : State} (h : s.Fetches u) {n : Nat} {ws : List Word}
    (hw : fetchWords n u = .ok (ws, w)) : s.Fetches w := by
  induction n generalizing u ws with
  | zero => cases hw; exact h
  | succ n ih =>
    rw [fetchWords] at hw
    split at hw
    · cases hw
    next v u1 hl =>
      split at hw
      · cases hw
      next ws' u2 hn =>
        cases hw
        exact ih ((h.load hl).moved _ _) hn

/-- What a step that goes on can do (30 R149; 60 R439, R442, R445, R449): wait, halt on a double fault, raise an
exception, or run an instruction, which may be traced. -/
inductive State.Steps (s t : State) : Prop
  | waits (h : s.Fetches t)
  | halts (u : State) (h : s.Fetches u) (ht : t = { u with runState := .halted })
  | raises (u : State) (k : ExcKind) (h : s.Fetches u) (hr : u.raise k = .next t)
  | runs (u : State) (i : Instr) (h : s.Fetches u) (hi : exec i u = .next t)
  | traces (u v : State) (i : Instr) (h : s.Fetches u) (hi : exec i u = .next v) (hr : v.raise .trace = .next t)

/-- What an outcome of the words at the PC can be before the trace: an exception or an instruction. -/
inductive State.Runs (s t : State) : Prop
  | raises (u : State) (k : ExcKind) (h : s.Fetches u) (hr : u.raise k = .next t)
  | runs (u : State) (i : Instr) (h : s.Fetches u) (hi : exec i u = .next t)

section
variable {s u t : State}

theorem State.Fetches.reject (h : s.Fetches u) {r : Reject} (ht : u.reject r = .next t) : s.Runs t := by
  cases r with
  | unmatched w | badBrief => exact .raises u _ h ht
  | _ => cases ht

theorem State.Fetches.runOp (h : s.Fetches u) {op : Op} {w : Word} {is : List Word}
    (ht : u.runOp exec op w is = .next t) : s.Runs t := by
  obtain ⟨es, u1, hf, ht⟩ := withValue_next ht
  have h1 := h.words hf
  split at ht
  · exact h1.reject ht
  · exact .runs u1 _ h1 ht

theorem State.Fetches.runWord (h : s.Fetches u) {w : Word} (ht : u.runWord exec w = .next t) : s.Runs t := by
  unfold State.runWord at ht
  split at ht
  · exact h.reject ht
  · exact h.reject ht
  · split at ht
    · obtain ⟨is, u1, hf, ht⟩ := withValue_next ht
      exact (h.words hf).runOp ht
    · exact .raises u _ h ht
  · obtain ⟨is, u1, hf, ht⟩ := withValue_next ht
    have h1 := h.words hf
    split at ht
    · exact h1.reject ht
    · exact h1.runOp ht

/-- The trace exception follows an instruction that raised none; any other outcome stays. -/
theorem traced_next {b : Bool} {r : Result} (h : traced b r = .next t) :
    r = .next t ∨ ∃ v, r = .next v ∧ v.afterException = false ∧ v.raise .trace = .next t := by
  unfold traced at h
  split at h
  next v =>
    split at h
    next hb =>
      simp only [Bool.and_eq_true, Bool.not_eq_true'] at hb
      exact .inr ⟨v, rfl, hb.1.2, h⟩
    next => exact .inl h
  next => exact .inl h

theorem State.Fetches.runInstr (h : s.Fetches u) (ht : u.runInstr exec = .next t) : s.Steps t := by
  obtain ⟨w, u1, hl, ht⟩ := withValue_next ht
  have h1 : s.Fetches u1.opcodeFetched :=
    (State.Fetches.load (u := { u with cursor := u.pc }) (h.moved u.pc u.afterException) hl).moved _ _
  obtain ht | ⟨v, hv, hnone, ht⟩ := traced_next ht
  · obtain ⟨u2, k, h2, hr⟩ | ⟨u2, i, h2, hi⟩ := h1.runWord ht
    · exact .raises u2 k h2 hr
    · exact .runs u2 i h2 hi
  · obtain ⟨u2, k, h2, hr⟩ | ⟨u2, i, h2, hi⟩ := h1.runWord hv
    · exact absurd hnone (by simp [State.raise_afterException hr])
    · exact .traces u2 v i h2 hi ht

theorem State.Fetches.cycle (h : s.Fetches u) (ht : u.cycle exec = .next t) : s.Steps t := by
  unfold State.cycle at ht
  split at ht
  · split at ht
    · injection ht with ht
      exact .halts u h ht.symm
    · exact .raises u _ h ht
  · exact h.runInstr ht

theorem step_next (h : step s = .next t) : s.Steps t := by
  have wait := (State.Fetches.refl s).tick
  unfold step stepUsing at h
  split at h
  · cases h
  · cases h
  · split at h
    · cases h
      exact .waits (.refl _)
    · split at h
      · exact .raises _ _ wait h
      · cases h
        exact .waits wait
    · split at h
      · exact .raises _ _ wait h
      · exact wait.cycle h

end

/-! ### What a step keeps -/

/-- What no step changes (00 R7; 10 R43), or changes at its end alone (20 R87). -/
structure State.KeepsParameters (s t : State) : Prop where
  cfg : t.cfg = s.cfg
  fault : t.fault = s.fault
  refused : t.refused = s.refused
  ioLog : s.ioLog <+: t.ioLog
  drawCount : s.drawCount ≤ t.drawCount

theorem State.KeepsParameters.trans {s u t : State} (h : s.KeepsParameters u) (h' : u.KeepsParameters t) :
    s.KeepsParameters t :=
  ⟨h'.cfg.trans h.cfg, h'.fault.trans h.fault, h'.refused.trans h.refused, h.ioLog.trans h'.ioLog,
    h.drawCount.trans h'.drawCount⟩

theorem State.KeepsParameters.of_system {s t : State} (h : t.system = s.system) (hlog : s.ioLog <+: t.ioLog)
    (hdraw : s.drawCount ≤ t.drawCount) : s.KeepsParameters t :=
  ⟨congrArg SystemPart.cfg h, congrArg SystemPart.fault h, congrArg SystemPart.refused h, hlog, hdraw⟩

theorem State.Within.keepsParameters {p : Footprint} {s t : State} (h : s.Within p t) : s.KeepsParameters t :=
  .of_system h.system h.ioLog h.drawCount

theorem State.Fetches.keepsParameters {s u : State} (h : s.Fetches u) : s.KeepsParameters u :=
  ⟨by rw [h.eq_with], by rw [h.eq_with], by rw [h.eq_with], h.ioLog, h.drawCount⟩

section
variable {s t u : State}

/-! ### Taking an exception -/

/-- What an entry changes before it sets the run state and the mark: the frame and the stack pointer (60 R434). -/
def entryFootprint (sp : Long) : Footprint where
  dregs := []
  aregs := [7]
  spans := [(sp - 4, 4), (sp - 8, 4)]
  flags := .none

/-- An entry stores the frame from the state with the new SR, and then reads the vector. -/
theorem State.enter_parts {vec : BitVec 8} {pc : Long} {level : Option (BitVec 3)}
    (h : s.enter vec pc level = .next t) : ∃ v, (s.entering level).Within (entryFootprint (s.frameTop level)) v ∧
      State.Within (entryFootprint 0) { v with runState := .running, afterException := true } t := by
  obtain ⟨-, -, -, rfl⟩ := State.enter_next h
  refine ⟨_, ?_, ((State.Within.refl _ _).access _ _ _).atPc _⟩
  refine (((State.Within.refl _ _).deposit pc fun k hk => ⟨_, List.mem_cons_self, hk⟩).deposit _ fun k hk =>
    ⟨_, List.mem_cons_of_mem _ List.mem_cons_self, hk⟩).setA List.mem_cons_self _

theorem State.raise_keepsParameters {k : ExcKind} (h : s.raise k = .next t) : s.KeepsParameters t := by
  obtain ⟨v, hframe, hread⟩ := State.enter_parts h
  have entering : s.KeepsParameters (s.entering k.level) := ⟨rfl, rfl, rfl, List.prefix_rfl, Nat.le_refl _⟩
  have marked : v.KeepsParameters { v with runState := .running, afterException := true } :=
    ⟨rfl, rfl, rfl, List.prefix_rfl, Nat.le_refl _⟩
  exact ((entering.trans hframe.keepsParameters).trans marked).trans hread.keepsParameters

theorem exec_keepsParameters {i : Instr} (hi : exec i s = .next t) : s.KeepsParameters t := by
  obtain h | ⟨u, k, h, hr⟩ | ⟨u, v, r, pc, -, -, h, -, rfl⟩ | ⟨-, rfl⟩ | ⟨code, v, -, rfl⟩ | ⟨v, -, rfl⟩ := exec_effect hi
  · exact h.keepsParameters
  · exact h.keepsParameters.trans (State.raise_keepsParameters hr)
  · exact h.keepsParameters.trans ⟨rfl, rfl, rfl, List.prefix_rfl, Nat.le_refl _⟩
  · exact ⟨rfl, rfl, rfl, List.prefix_rfl, Nat.le_refl _⟩
  · obtain ⟨vbr, ctrl, ssp, usp, hset⟩ := s.setControl_frame code v
    rw [hset]
    exact ⟨rfl, rfl, rfl, List.prefix_rfl, Nat.le_refl _⟩
  · exact .of_system (by simp [State.system, State.done]) (by simp [State.done]) (by simp [State.done])

/-- Settles O4: the fetch, an exception and an instruction each keep the parameters. -/
theorem stepKeepsParameters : Obligations.StepKeepsParameters := by
  intro s t hstep
  have hkept : s.KeepsParameters t := by
    obtain h | ⟨u, h, rfl⟩ | ⟨u, k, h, hr⟩ | ⟨u, i, h, hi⟩ | ⟨u, v, i, h, hi, hr⟩ := step_next hstep
    · exact h.keepsParameters
    · exact h.keepsParameters.trans ⟨rfl, rfl, rfl, List.prefix_rfl, Nat.le_refl _⟩
    · exact h.keepsParameters.trans (State.raise_keepsParameters hr)
    · exact h.keepsParameters.trans (exec_keepsParameters hi)
    · exact (h.keepsParameters.trans (exec_keepsParameters hi)).trans
        (State.raise_keepsParameters hr)
  exact ⟨hkept.cfg, hkept.fault, hkept.refused, hkept.ioLog, hkept.drawCount⟩

/-! ### The invariant of the machine's data (10 R39, R44, R45; 20 R80) -/

/-- The invariant with a name for each part. -/
structure State.Sound (s : State) : Prop where
  mem : s.mem.wf = true
  ctrl : ctrlWf s.ctrl = true
  sr : s.sr &&& ~~~srMask = 0
  vbr : s.vbr &&& 0x000FFFFF = 0
  otherA7 : Sparse.get s.ctrl 0x800 = 0
  storedVbr : Sparse.get s.ctrl 0x801 = 0

theorem State.sound_iff (s : State) : s.sound = true ↔ s.Sound := by
  simp only [State.sound, Bool.and_eq_true, beq_iff_eq]
  exact ⟨fun ⟨⟨⟨⟨⟨hmem, hctrl⟩, hsr⟩, hvbr⟩, ha7⟩, hst⟩ => ⟨hmem, hctrl, hsr, hvbr, ha7, hst⟩,
    fun ⟨hmem, hctrl, hsr, hvbr, ha7, hst⟩ => ⟨⟨⟨⟨⟨hmem, hctrl⟩, hsr⟩, hvbr⟩, ha7⟩, hst⟩⟩

theorem State.Sound.congr (h : s.Sound) (hmem : t.mem = s.mem) (hctrl : t.ctrl = s.ctrl) (hsr : t.sr = s.sr)
    (hvbr : t.vbr = s.vbr) : t.Sound := by
  obtain ⟨h1, h2, h3, h4, h5, h6⟩ := h
  constructor <;> simp only [hmem, hctrl, hsr, hvbr] <;> assumption

/-- The flags are bits that exist, so the reserved bits depend on SR[15:5] alone. -/
theorem reserved_zero_congr {v w : Word} (h : w.extractLsb' 5 11 = v.extractLsb' 5 11) (hv : v &&& ~~~srMask = 0) :
    w &&& ~~~srMask = 0 := by
  rw [reserved_zero_iff] at hv ⊢
  intro i hi hbit
  by_cases hlow : i < 5
  · simp [srMask_getLsbD i hi, Nat.le_of_lt_succ hlow]
  · have heq : w.getLsbD i = v.getLsbD i := by
      have hplace : 5 + (i - 5) = i := by omega
      have hin : i - 5 < 11 := by omega
      simpa [BitVec.getLsbD_extractLsb', hplace, hin] using congrArg (fun b : BitVec 11 => b.getLsbD (i - 5)) h
    exact hv i hi (heq ▸ hbit)

theorem State.Sound.within (h : s.Sound) {p : Footprint} (hw : s.Within p t) : t.Sound := by
  have hctrl : t.ctrl = s.ctrl := congrArg SystemPart.ctrl hw.system
  have hvbr : t.vbr = s.vbr := congrArg SystemPart.vbr hw.system
  exact ⟨hw.memWf h.mem, hctrl ▸ h.ctrl, reserved_zero_congr hw.srHigh h.sr, hvbr ▸ h.vbr, hctrl ▸ h.otherA7,
    hctrl ▸ h.storedVbr⟩

theorem State.Sound.raise (h : s.Sound) {k : ExcKind} (hr : s.raise k = .next t) : t.Sound := by
  obtain ⟨v, hframe, hread⟩ := State.enter_parts hr
  have entering : (s.entering k.level).Sound := { h with sr := entrySr_reserved h.sr _ }
  exact ((entering.within hframe).congr (t := { v with runState := .running, afterException := true })
    rfl rfl rfl rfl).within hread

/-- A write of VBR keeps its low bits 0, one of OTHER_A7 goes to a stack pointer, any other is stored in canonical form
and reaches neither code. -/
theorem State.Sound.setControl (h : s.Sound) (code : BitVec 12) (v : Long) : (s.setControl code v).Sound := by
  unfold State.setControl
  split
  next =>
    refine { h with vbr := ?_ }
    show v &&& 0xFFF00000 &&& 0x000FFFFF = 0
    rw [BitVec.and_assoc]
    exact BitVec.and_zero
  split
  next => exact h.congr (State.setUserSp_mem ..) (State.setUserSp_ctrl ..) (State.setUserSp_sr ..) (State.setUserSp_vbr ..)
  next hvbr ha7 =>
    have other : ∀ c : BitVec 12, code ≠ c → Sparse.get s.ctrl c.toNat = 0 →
        Sparse.get (Sparse.set s.ctrl code.toNat v) c.toNat = 0 := fun c hne hc => by
      rw [Sparse.get_set_of_ne _ _ fun he => hne (BitVec.eq_of_toNat_eq he), hc]
    exact { h with
      ctrl := Sparse.set_wfFrom (Nat.zero_le _) code.isLt h.ctrl
      otherA7 := other 0x800 ha7 h.otherA7
      storedVbr := other 0x801 hvbr h.storedVbr }

theorem State.Sound.exec (h : s.Sound) {i : Instr} (hi : exec i s = .next t) : t.Sound := by
  obtain hw | ⟨u, k, hw, hr⟩ | ⟨u, v, r, pc, -, -, hw, -, rfl⟩ | ⟨-, rfl⟩ | ⟨code, v, -, rfl⟩ | ⟨v, -, rfl⟩ :=
    exec_effect hi
  · exact h.within hw
  · exact (h.within hw).raise hr
  · exact { h.within hw with sr := by show v &&& srMask &&& ~~~srMask = 0; rw [BitVec.and_assoc]; simp }
  · exact h.congr rfl rfl rfl rfl
  · exact (h.setControl code v).congr rfl rfl rfl rfl
  · exact h.congr (State.setUserSp_mem ..) (State.setUserSp_ctrl ..) (State.setUserSp_sr ..) (State.setUserSp_vbr ..)

theorem State.Sound.fetches (h : s.Sound) (hf : s.Fetches u) : u.Sound :=
  h.congr (by rw [hf.eq_with]) (by rw [hf.eq_with]) (by rw [hf.eq_with]) (by rw [hf.eq_with])

/-- Settles O3: the fetch, an exception and an instruction each keep the invariant. -/
theorem stepKeepsSound : Obligations.StepKeepsSound := by
  intro s t hs hstep
  rw [State.sound_iff] at hs ⊢
  obtain h | ⟨u, h, rfl⟩ | ⟨u, k, h, hr⟩ | ⟨u, i, h, hi⟩ | ⟨u, v, i, h, hi, hr⟩ := step_next hstep
  · exact hs.fetches h
  · exact (hs.fetches h).congr rfl rfl rfl rfl
  · exact (hs.fetches h).raise hr
  · exact (hs.fetches h).exec hi
  · exact ((hs.fetches h).exec hi).raise hr

theorem State.resetWith_sound (cfg : Config) {image : Memory} (h : image.wf = true) (r : ResetDraws) :
    (State.resetWith cfg image r).Sound :=
  ⟨h, rfl, State.resetWith_sr_reserved cfg image r, BitVec.zero_and, rfl, rfl⟩

/-- Settles O2: an image in canonical form is the memory, the control registers are none and VBR is 0. -/
theorem resetIsSound : Obligations.ResetIsSound :=
  ⟨(State.sound_iff _).mpr (State.resetWith_sound _ rfl _), fun cfg _ r h =>
    (State.sound_iff _).mpr (State.resetWith_sound cfg h r)⟩

/-! ### The way into supervisor mode (10 R41; 60 R434, R436) -/

theorem exec_supervisor {i : Instr} (hs : s.supervisor = false) (hi : exec i s = .next t)
    (ht : t.supervisor = true) : t.afterException = true := by
  have clash : ∀ u : State, u.supervisor = s.supervisor → ¬ u.supervisor = true := fun u hu => by simp [hu, hs]
  obtain hw | ⟨u, k, -, hr⟩ | ⟨u, v, r, pc, -, hsup, -, -, -⟩ | ⟨-, rfl⟩ | ⟨code, v, -, rfl⟩ | ⟨v, -, rfl⟩ :=
    exec_effect hi
  · exact absurd ht (clash t (State.supervisor_congr hw.srHigh))
  · exact State.raise_afterException hr
  · exact absurd hsup (clash s rfl)
  · exact absurd ht (clash _ rfl)
  · obtain ⟨vbr, ctrl, ssp, usp, hset⟩ := s.setControl_frame code v
    rw [hset] at ht
    exact absurd ht (clash s rfl)
  · exact absurd ht (clash _ (congrArg (fun w : Word => w.getLsbD 13) (State.setUserSp_sr s v)))

/-- Settles O31: no instruction leaves user mode but by an exception, and an exception sets the mark. -/
theorem supervisorOnlyByException : Obligations.SupervisorOnlyByException := by
  intro s t hs hstep ht
  have fetched : ∀ u : State, s.Fetches u → u.supervisor = false := fun u hu => by rw [hu.eq_with]; exact hs
  obtain h | ⟨u, h, rfl⟩ | ⟨u, k, h, hr⟩ | ⟨u, i, h, hi⟩ | ⟨u, v, i, h, hi, hr⟩ := step_next hstep
  · exact absurd ht (by simp [fetched t h])
  · exact absurd (show u.supervisor = true from ht) (by simp [fetched u h])
  · exact State.raise_afterException hr
  · exact exec_supervisor (fetched u h) hi ht
  · exact State.raise_afterException hr

end

end Sys2Proof.Machine
end

section
/-! PROOFS. The registry has at most one definition for a word (30_encoding.md R145, R146): any two rows of a line fix a
bit differently, or one has no legal mode or an exclusion where the other has its fixed bits, or their extension words
tell them apart. -/

namespace Sys2Proof

open Machine (mem_candidates_iff)

/-! ### What a match says (30 R141 to R143) -/

/-- The gate of the modes: the EA field has a mode of the row's set, and so has a MOVE's destination field, with a
combination that is admitted. -/
theorem Row.modesLegal_iff (r : Row) (tier : Tier) (w : Word) : r.modesLegal tier w = true ↔
    ∀ set, r.ea = some set → ∃ m, Mode.ofField (eaField w) = some m ∧ set.has m = true ∧
      ∀ dset, r.dst = some dset → ∃ d, Mode.ofField (moveDstField w) = some d ∧ dset.has d = true ∧
        moveCombo tier r.eaSize m d = true := by
  unfold Row.modesLegal
  cases r.ea with
  | none => simp
  | some set =>
    cases Mode.ofField (eaField w) with
    | none => simp
    | some m =>
      cases r.dst with
      | none => simp
      | some dset =>
        cases Mode.ofField (moveDstField w) with
        | none => simp
        | some d => simp [Bool.and_eq_true]

theorem Row.hits_iff (r : Row) (isa : Isa) (w : Word) : r.hits isa w = true ↔
    w &&& r.mask = r.pat ∧ r.visible isa = true ∧ (∀ e ∈ r.exclude, w &&& e.2 ≠ e.1) ∧
      r.modesLegal isa.tier w = true := by
  simp only [Row.hits, Bool.and_eq_true, beq_iff_eq, List.all_eq_true, bne_iff_ne, and_assoc]

/-! ### Rows that no word matches both of -/

/-- Both rows fix some bit of the opcode word, to different values. -/
def Row.patClash (r q : Row) : Bool := r.pat &&& q.mask != q.pat &&& r.mask

/-- No EA field with the bits that `q` fixes has a mode of the set of `r`. -/
def Row.eaClash (r q : Row) : Bool :=
  r.ea.any fun set => decide (∀ f : BitVec 6, f &&& q.mask.extractLsb' 0 6 = q.pat.extractLsb' 0 6 →
    (Mode.ofField f).all fun m => !set.has m)

/-- No destination field with the bits that `q` fixes has a mode of the destination set of `r`. -/
def Row.dstClash (r q : Row) : Bool :=
  r.ea.isSome && r.dst.any fun set => decide (∀ f : BitVec 6, f.extractLsb' 3 3 &&& q.mask.extractLsb' 6 3 =
    q.pat.extractLsb' 6 3 → (Mode.ofField f).all fun m => !set.has m)

/-- The fixed bits of `q` are among those that `r` excludes. -/
def Row.excludeClash (r q : Row) : Bool := r.exclude.any fun e => q.mask &&& e.2 == e.2 && q.pat &&& e.2 == e.1

/-- A reason why no word matches both rows. -/
def Row.apart (r q : Row) : Bool := r.patClash q || r.eaClash q || r.dstClash q || r.excludeClash q

/-- A field of a matching word has the bits that the row fixes there. -/
theorem Row.field_of_pat {r : Row} {w : Word} (h : w &&& r.mask = r.pat) (lo len : Nat) :
    w.extractLsb' lo len &&& r.mask.extractLsb' lo len = r.pat.extractLsb' lo len := by
  rw [← BitVec.extractLsb'_and, h]

theorem moveDstField_mode (w : Word) : (moveDstField w).extractLsb' 3 3 = w.extractLsb' 6 3 :=
  BitVec.extractLsb'_append_eq_left

theorem Row.not_hits_of_apart {r q : Row} (h : r.apart q = true) {isa : Isa} {w : Word}
    (hr : r.hits isa w = true) : ¬ q.hits isa w = true := by
  intro hq
  have hagree := Machine.Row.pat_agree_of_hits hr hq
  obtain ⟨-, -, hexclude, hmodes⟩ := (r.hits_iff isa w).mp hr
  obtain ⟨hqpat, -, -, -⟩ := (q.hits_iff isa w).mp hq
  rw [Row.modesLegal_iff] at hmodes
  simp only [Row.apart, Bool.or_eq_true] at h
  obtain ((hpat | hea) | hdst) | hex := h
  · simp [Row.patClash, hagree] at hpat
  · obtain ⟨set, hset, hnone⟩ := (Option.any_eq_true _ _).mp hea
    obtain ⟨m, hm, hhas, -⟩ := hmodes set hset
    simpa [hm, hhas] using of_decide_eq_true hnone (eaField w) (Row.field_of_pat hqpat 0 6)
  · obtain ⟨hea, hdst⟩ := Bool.and_eq_true_iff.mp hdst
    obtain ⟨set, hset⟩ := Option.isSome_iff_exists.mp hea
    obtain ⟨dset, hdset, hnone⟩ := (Option.any_eq_true _ _).mp hdst
    obtain ⟨m, -, -, hcombo⟩ := hmodes set hset
    obtain ⟨d, hd, hhas, -⟩ := hcombo dset hdset
    have hfield := Row.field_of_pat hqpat 6 3
    rw [← moveDstField_mode] at hfield
    simpa [hd, hhas] using of_decide_eq_true hnone (moveDstField w) hfield
  · obtain ⟨e, he, hfixed⟩ := List.any_eq_true.mp hex
    simp only [Bool.and_eq_true, beq_iff_eq] at hfixed
    obtain ⟨hmask, hpat⟩ := hfixed
    apply hexclude e he
    calc w &&& e.2 = w &&& (q.mask &&& e.2) := by rw [hmask]
      _ = e.1 := by rw [← BitVec.and_assoc, hqpat, hpat]

/-! ### Groups of rows told apart by their extension word (30 R146) -/

/-- No extension word fits both patterns. -/
def ExtSel.apart (x y : ExtSel) : Bool :=
  x.pat &&& y.mask != y.pat &&& x.mask || x.rel == .same && y.rel == .differ || x.rel == .differ && y.rel == .same

theorem ExtSel.not_fits_of_apart {x y : ExtSel} (h : x.apart y = true) {e : Word} (hx : x.fits e = true) :
    ¬ y.fits e = true := by
  intro hy
  simp only [ExtSel.fits, Bool.and_eq_true, beq_iff_eq] at hx hy
  obtain ⟨hxp, hxr⟩ := hx
  obtain ⟨hyp, hyr⟩ := hy
  simp only [ExtSel.apart, Bool.or_eq_true, Bool.and_eq_true, beq_iff_eq, bne_iff_ne] at h
  obtain (hpat | ⟨hsame, hdiffer⟩) | ⟨hdiffer, hsame⟩ := h
  · apply hpat
    rw [← hxp, ← hyp]
    ac_rfl
  · simp_all
  · simp_all

/-- Whether the row's extension pattern fits the word. -/
def Op.fitsExt (e : Word) (op : Op) : Bool := op.row.ext.any fun x => x.fits e

/-- Whether two rows are told apart: by the opcode word, or each by the pattern of its extension word. -/
def Op.distinct (a b : Op) : Bool :=
  a.row.apart b.row || b.row.apart a.row ||
    (a.row.ext.any fun x => b.row.ext.any fun y => x.apart y)

/-- Any two rows of a line are told apart. -/
theorem lineOps_distinct : ∀ line : BitVec 4, ∀ a ∈ lineOps line.toNat, ∀ b ∈ lineOps line.toNat, a ≠ b →
    a.distinct b = true := by
  decide +kernel

theorem lineOps_nodup : ∀ line : BitVec 4, (lineOps line.toNat).Nodup := by decide +kernel

/-- Two candidates for one word have extension patterns that no word fits both of. -/
theorem candidates_ext_apart {isa : Isa} {w : Word} {a b : Op} (ha : a ∈ candidates isa w) (hb : b ∈ candidates isa w)
    (hne : a ≠ b) : ∃ x y, a.row.ext = some x ∧ b.row.ext = some y ∧ x.apart y = true := by
  obtain ⟨haline, hahits⟩ := mem_candidates_iff.mp ha
  obtain ⟨hbline, hbhits⟩ := mem_candidates_iff.mp hb
  have h := lineOps_distinct _ a haline b hbline hne
  simp only [Op.distinct, Bool.or_eq_true, Option.any_eq_true] at h
  obtain (h | h) | ⟨x, hx, y, hy, h⟩ := h
  · exact absurd hbhits (Row.not_hits_of_apart h hahits)
  · exact absurd hahits (Row.not_hits_of_apart h hbhits)
  · exact ⟨x, y, hx, hy, h⟩

theorem candidates_nodup (isa : Isa) (w : Word) : (candidates isa w).Nodup := (lineOps_nodup _).filter _

/-- A candidate without an extension pattern is the only one. -/
theorem candidates_eq_singleton {isa : Isa} {w : Word} {op : Op} (h : op ∈ candidates isa w)
    (hext : op.row.ext = none) : candidates isa w = [op] := by
  refine List.Perm.eq_singleton ((List.perm_ext_iff_of_nodup (candidates_nodup isa w) (List.nodup_singleton op)).mpr
    fun b => ⟨fun hb => ?_, fun hb => List.mem_singleton.mp hb ▸ h⟩)
  by_contra hne
  obtain ⟨x, y, hx, -, -⟩ := candidates_ext_apart h hb fun he => hne (List.mem_singleton.mpr he.symm)
  simp [hext] at hx

/-! ### What the lookup answers (30 R145, R146) -/

/-- A word with a candidate that has no extension pattern is looked up as that one. -/
theorem lookup_eq_found {isa : Isa} {w : Word} {op : Op} (h : op ∈ candidates isa w) (hext : op.row.ext = none) :
    lookup isa w = .found op := by
  simp [lookup, candidates_eq_singleton h hext, hext]

/-- A word whose candidates all have an extension pattern is looked up as their group. -/
theorem lookup_eq_group {isa : Isa} {w : Word} (hne : candidates isa w ≠ [])
    (hext : ∀ op ∈ candidates isa w, op.row.ext.isSome = true) : lookup isa w = .group (candidates isa w) := by
  unfold lookup
  split
  · contradiction
  · rw [if_pos (List.all_eq_true.mpr hext)]

/-- The three answers of the lookup. -/
theorem lookup_cases (isa : Isa) (w : Word) :
    (candidates isa w = [] ∧ lookup isa w = .unmatched) ∨
      (∃ op, candidates isa w = [op] ∧ op.row.ext = none ∧ lookup isa w = .found op) ∨
      (candidates isa w ≠ [] ∧ (∀ op ∈ candidates isa w, op.row.ext.isSome = true) ∧
        lookup isa w = .group (candidates isa w)) := by
  by_cases hnil : candidates isa w = []
  · exact .inl ⟨hnil, Machine.lookup_of_candidates_nil hnil⟩
  · by_cases hext : ∀ op ∈ candidates isa w, op.row.ext.isSome = true
    · exact .inr (.inr ⟨hnil, hext, lookup_eq_group hnil hext⟩)
    · push Not at hext
      obtain ⟨op, hop, hext⟩ := hext
      have hext : op.row.ext = none := by simpa using hext
      exact .inr (.inl ⟨op, candidates_eq_singleton hop hext, hext, lookup_eq_found hop hext⟩)

theorem candidates_of_group {isa : Isa} {w : Word} {ops : List Op} (h : lookup isa w = .group ops) :
    ops = candidates isa w ∧ ∀ op ∈ ops, op.row.ext.isSome = true := by
  obtain ⟨-, h'⟩ | ⟨op, -, -, h'⟩ | ⟨-, hext, h'⟩ := lookup_cases isa w <;> rw [h'] at h <;> cases h
  exact ⟨rfl, hext⟩

theorem selectRow_eq_find (ops : List Op) (e : Word) : selectRow ops e = ops.find? (Op.fitsExt e) := by
  unfold selectRow
  congr 1
  funext op
  unfold Op.fitsExt
  cases op.row.ext <;> rfl

/-- Only one candidate fits an extension word. -/
theorem candidates_fits_unique {isa : Isa} {w e : Word} {a b : Op} (ha : a ∈ candidates isa w)
    (hb : b ∈ candidates isa w) (hae : a.fitsExt e = true) (hbe : b.fitsExt e = true) : a = b := by
  by_contra hne
  obtain ⟨x, y, hx, hy, hxy⟩ := candidates_ext_apart ha hb hne
  simp only [Op.fitsExt, hx, hy, Option.any_some] at hae hbe
  exact ExtSel.not_fits_of_apart hxy hae hbe

/-- At most one candidate is left by the test of the extension word. -/
theorem filter_fits_length_le (isa : Isa) (w e : Word) : ((candidates isa w).filter (Op.fitsExt e)).length ≤ 1 := by
  by_contra hlen
  match hf : (candidates isa w).filter (Op.fitsExt e), hlen with
  | a :: b :: l, _ =>
    have mem : ∀ c ∈ a :: b :: l, c ∈ candidates isa w ∧ c.fitsExt e = true := fun c hc =>
      List.mem_filter.mp (hf ▸ hc)
    obtain ⟨ha, hae⟩ := mem a List.mem_cons_self
    obtain ⟨hb, hbe⟩ := mem b (List.mem_cons_of_mem _ List.mem_cons_self)
    have hnodup := hf ▸ (candidates_nodup isa w).filter (Op.fitsExt e)
    exact (List.nodup_cons.mp hnodup).1 (candidates_fits_unique ha hb hae hbe ▸ List.mem_cons_self)
  | [_], hlen => simp at hlen
  | [], hlen => simp at hlen

/-- Settles O17: no answer of the lookup is ambiguous, and in a group the extension patterns leave at most one row. -/
theorem registryIsUnambiguous : Obligations.RegistryIsUnambiguous := by
  refine fun isa => ⟨fun w h => ?_, fun w ops h => ?_⟩
  · obtain ⟨-, h'⟩ | ⟨op, -, -, h'⟩ | ⟨-, -, h'⟩ := lookup_cases isa w <;> rw [h'] at h <;> cases h
  · obtain ⟨rfl, hext⟩ := candidates_of_group h
    refine ⟨fun op hop hnone => by simpa [hnone] using hext op hop, fun e => ⟨filter_fits_length_le isa w e, ?_⟩⟩
    rw [selectRow_eq_find]
    exact List.head?_filter.symm

end Sys2Proof
end

section
/-! PROOFS. The fields of an instruction word (30_encoding.md R131 to R138): which fields each layout has, where each
piece of an operand lies, and that the reader of an EA field and its extension words inverts their writer. -/

namespace Sys2Proof

/-! ### Pieces of a word (30 R131) -/

section
variable {n : Nat} (x : BitVec n) (k : Nat)

/-- A piece put at bit `k` is read back there. -/
theorem extractLsb'_piece (h : k + n ≤ 16) : ((x.setWidth 16 : Word) <<< k).extractLsb' k n = x := by
  apply BitVec.eq_of_getLsbD_eq
  intro i hi
  have hin : k + i < 16 := by omega
  simp [hi, hin]

/-- A field below or above a piece holds none of it. -/
theorem extractLsb'_piece_of_disjoint {lo len : Nat} (h : lo + len ≤ k ∨ k + n ≤ lo) :
    ((x.setWidth 16 : Word) <<< k).extractLsb' lo len = 0 := by
  apply BitVec.eq_of_getLsbD_eq
  intro i hi
  by_cases hbit : k ≤ lo + i
  · have hout : n ≤ lo + i - k := by omega
    simp [BitVec.getLsbD_of_ge x _ hout]
  · have hlt : lo + i < k := by omega
    simp [hlt]

/-- A piece lies outside a mask that is 0 over its field. -/
theorem piece_and_eq_zero {m : Word} (h : m.extractLsb' k n = 0) : (x.setWidth 16 : Word) <<< k &&& m = 0 := by
  apply BitVec.eq_of_getLsbD_eq
  intro i hi
  have hm := congrArg (fun v : BitVec n => v.getLsbD (i - k)) h
  by_cases hin : k ≤ i ∧ i - k < n
  · obtain ⟨hk, hn⟩ := hin
    have hki : k + (i - k) = i := by omega
    have hbit : m.getLsbD i = false := by simpa [hn, hki] using hm
    simp [hbit]
  · by_cases hk : i < k
    · simp [hk]
    · have hn : n ≤ i - k := by omega
      simp [BitVec.getLsbD_of_ge x _ hn]

/-- The lowest piece, written without a shift. -/
theorem setWidth_eq_shiftLeft_zero : (x.setWidth 16 : Word) = x.setWidth 16 <<< 0 := (BitVec.shiftLeft_zero _).symm

theorem extractLsb'_low_piece (h : n ≤ 16) : (x.setWidth 16 : Word).extractLsb' 0 n = x := by
  rw [setWidth_eq_shiftLeft_zero, extractLsb'_piece x 0 (by omega)]

theorem extractLsb'_low_piece_of_disjoint {lo len : Nat} (h : n ≤ lo) :
    (x.setWidth 16 : Word).extractLsb' lo len = 0 := by
  rw [setWidth_eq_shiftLeft_zero, extractLsb'_piece_of_disjoint x 0 (by omega)]

end

/-- A word is its three fields of a branch: the line, the condition and the displacement byte (30 R132). -/
theorem Word.eq_iff_branch_fields (w v : Word) : w = v ↔ w.extractLsb' 12 4 = v.extractLsb' 12 4 ∧
    w.extractLsb' 8 4 = v.extractLsb' 8 4 ∧ w.extractLsb' 0 8 = v.extractLsb' 0 8 := by
  refine ⟨fun h => h ▸ ⟨rfl, rfl, rfl⟩, fun ⟨hline, hcond, hdisp⟩ => BitVec.eq_of_getLsbD_eq fun i hi => ?_⟩
  by_cases h8 : i < 8
  · simpa [h8] using congrArg (fun b : BitVec 8 => b.getLsbD i) hdisp
  · by_cases h12 : i < 12
    · have hlt : i - 8 < 4 := by omega
      have hadd : 8 + (i - 8) = i := by omega
      simpa [hlt, hadd] using congrArg (fun b : BitVec 4 => b.getLsbD (i - 8)) hcond
    · have hlt : i - 12 < 4 := by omega
      have hadd : 12 + (i - 12) = i := by omega
      simpa [hlt, hadd] using congrArg (fun b : BitVec 4 => b.getLsbD (i - 12)) hline

/-! ### The layouts (30 R132, R138) -/

/-- The layout of operand fields. -/
def Args.form : Args → Form
  | .moveEa .. => .moveEa
  | .eaReg .. => .eaReg
  | .regEa .. => .regEa
  | .quick8 .. => .quick8
  | .quickEa .. => .quickEa
  | .shiftImm .. => .shiftImm
  | .maskEa .. => .maskEa
  | .eaMask .. => .eaMask
  | .ea .. => .ea
  | .reg .. => .reg
  | .regDisp .. => .regDisp
  | .immBReg .. => .immBReg
  | .immWReg .. => .immWReg
  | .immReg .. => .immReg
  | .regReg .. => .regReg
  | .shiftReg .. => .shiftReg
  | .mul .. => .mul
  | .div .. => .div
  | .rem .. => .rem
  | .bitEa .. => .bitEa
  | .condDisp8 .. => .condDisp8
  | .condDisp16 .. => .condDisp16
  | .condDisp32 .. => .condDisp32
  | .disp8 .. => .disp8
  | .disp16 .. => .disp16
  | .disp32 .. => .disp32
  | .condReg .. => .condReg
  | .fixed => .fixed
  | .word .. => .word
  | .long .. => .long
  | .wordWord .. => .wordWord
  | .wordEa .. => .wordEa
  | .vector .. => .vector
  | .ctrl .. => .ctrl

theorem Instr.args_form (i : Instr) : i.args.form = i.op.row.form := by cases i <;> rfl

theorem Instr.make_args (i : Instr) : Instr.make i.op i.args = some i := by cases i <;> rfl

/-- The lowest bit and the width of each operand field of the opcode word. -/
def Form.fields : Form → List (Nat × Nat)
  | .moveEa => [(9, 3), (6, 3), (0, 6)]
  | .eaReg | .regEa | .quickEa => [(9, 3), (0, 6)]
  | .quick8 => [(9, 3), (0, 8)]
  | .shiftImm | .shiftReg | .regReg => [(9, 3), (0, 3)]
  | .maskEa | .eaMask | .ea | .mul | .div | .rem | .bitEa | .wordEa => [(0, 6)]
  | .reg | .regDisp | .immBReg | .immWReg | .immReg => [(0, 3)]
  | .condDisp8 => [(8, 4), (0, 8)]
  | .condDisp16 | .condDisp32 => [(8, 4)]
  | .disp8 => [(0, 8)]
  | .condReg => [(8, 4), (0, 3)]
  | .vector => [(0, 4)]
  | .disp16 | .disp32 | .fixed | .word | .long | .wordWord | .ctrl => []

/-- Whether the layout has an EA field 5:0. -/
def Form.hasEa : Form → Bool
  | .moveEa | .eaReg | .regEa | .quickEa | .maskEa | .eaMask | .ea | .mul | .div | .rem | .bitEa | .wordEa => true
  | _ => false

/-- The pattern of the first extension word in the layouts of MUL.L, DIV.L and REM.L (43 R300, R301). -/
def Form.extSel (p : Word) : Form → Option ExtSel
  | .mul => some { pat := p, mask := 0x8FFF, rel := .any }
  | .div => some { pat := p, mask := 0x8FF8, rel := .same }
  | .rem => some { pat := p, mask := 0x8FF8, rel := .differ }
  | _ => none

/-- What the branch layouts exclude: the condition codes of BRA and BSR, and the displacement bytes of the word and the
long form (45 R360, R361). -/
def Form.excluded (p : Word) : Form → List (Word × Word)
  | .condDisp8 => [(0x6000, 0xFE00), (0x6000, 0xF0FF), (0x60FF, 0xF0FF)]
  | .condDisp16 | .condDisp32 => [(0x6000, 0xFE00)]
  | .disp8 => [(p, 0xFFFF), (p ||| 0xFF, 0xFFFF)]
  | _ => []

/-! ### The rows and their layouts (30 R139) -/

/-- The fixed bits of a row are in its mask. -/
theorem Op.pat_and_mask (op : Op) : op.row.pat &&& op.row.mask = op.row.pat := by
  cases op <;> decide +kernel

/-- The operand fields of a row lie outside its fixed bits and its mask. -/
theorem Op.fields_clear (op : Op) : ∀ f ∈ op.row.form.fields,
    op.row.pat.extractLsb' f.1 f.2 = 0 ∧ op.row.mask.extractLsb' f.1 f.2 = 0 := by
  cases op <;> decide +kernel

/-- Every row fixes the four bits of its line, and stands in it. -/
theorem Op.mem_lineOps (op : Op) : op.row.mask.extractLsb' 12 4 = 15 ∧
    op ∈ lineOps (op.row.pat.extractLsb' 12 4).toNat := by
  cases op <;> decide +kernel

/-- A row has a set of modes exactly if its layout has an EA field, and one of destination modes if it is F-MOVE. -/
theorem Op.ea_isSome (op : Op) : op.row.ea.isSome = op.row.form.hasEa ∧
    op.row.dst = (if op.row.form = .moveEa then some .dataAlt else none) := by
  cases op <;> decide +kernel

/-- A row with an EA and an extension word of its own takes modes with one extension word at most. -/
theorem Op.ea_of_extWords (op : Op) : op.row.form.hasEa = true → op.row.form.extWords ≠ 0 →
    op.row.form.extWords = 1 ∧ (op.row.ea = some .restr ∨ op.row.ea = some .movemEa) := by
  cases op <;> decide +kernel

theorem Op.ext_eq (op : Op) : op.row.ext = op.row.form.extSel op.row.extPat ∧
    (op.row.extPat = 0 ∨ op.row.extPat = 0x0800) := by
  cases op <;> decide +kernel

theorem Op.exclude_eq (op : Op) : op.row.exclude = op.row.form.excluded op.row.pat ∧
    (op.row.exclude ≠ [] → op.row.pat.extractLsb' 12 4 = 6) ∧
    (op.row.form = .disp8 → op.row.mask = 0xFF00) := by
  cases op <;> decide +kernel

/-! ### An EA field and its extension words (30 R133, R136, R137) -/

theorem Cond.ofCode_code (c : Cond) : Cond.ofCode c.code = c := by cases c <;> rfl

theorem GReg.ofBits_bits (r : GReg) : GReg.ofBits r.bits = r := by
  cases r with
  | d n => revert n; decide
  | a n => revert n; decide

theorem longWords_join (v : Long) : v.extractLsb' 16 16 ++ v.extractLsb' 0 16 = v :=
  BitVec.extractLsb'_append_extractLsb'_eq_extractLsb' (by omega) |>.trans (BitVec.extractLsb'_eq_self)

/-- A bit of a brief extension word, from the lowest field up. -/
theorem Brief.getLsbD_word (x : Brief) (i : Nat) : x.word.getLsbD i =
    if i < 8 then x.d8.getLsbD i
    else if i = 8 then false
    else if i < 11 then x.scale.bits.getLsbD (i - 9)
    else if i = 11 then true
    else x.xreg.bits.getLsbD (i - 12) := by
  have happ : x.word.getLsbD i =
      (x.xreg.bits ++ 1#1 ++ x.scale.bits ++ 0#1 ++ x.d8 : BitVec (4 + 1 + 2 + 1 + 8)).getLsbD i := rfl
  rw [happ]
  simp only [BitVec.getLsbD_append]
  grind

theorem Brief.word_fields (x : Brief) : x.word.extractLsb' 12 4 = x.xreg.bits ∧ x.word.getLsbD 11 = true ∧
    x.word.extractLsb' 9 2 = x.scale.bits ∧ x.word.getLsbD 8 = false ∧ x.word.extractLsb' 0 8 = x.d8 := by
  refine ⟨?_, by rw [x.getLsbD_word]; rfl, ?_, by rw [x.getLsbD_word]; rfl, ?_⟩
  · ext i hi
    simp [Brief.getLsbD_word]
    grind
  · ext i hi
    simp [Brief.getLsbD_word]
    grind
  · ext i hi
    simp [Brief.getLsbD_word, hi]

theorem Scale.ofBits_bits (x : Scale) : Scale.ofBits x.bits = some x := by cases x <;> rfl

theorem Brief.ofWord_word (x : Brief) : Brief.ofWord x.word = some x := by
  obtain ⟨hreg, hlong, hscale, hformat, hdisp⟩ := x.word_fields
  simp only [Brief.ofWord, hreg, hlong, hscale, hformat, hdisp, Scale.ofBits_bits, GReg.ofBits_bits]
  rfl

/-- The mode and the register of a field with mode bits 0 to 6 (30 R133). -/
theorem Mode.ofField_append : ∀ n : RegNo, Mode.ofField (0#3 ++ n) = some .dn ∧ Mode.ofField (1#3 ++ n) = some .an ∧
    Mode.ofField (2#3 ++ n) = some .ind ∧ Mode.ofField (3#3 ++ n) = some .postInc ∧
    Mode.ofField (4#3 ++ n) = some .preDec ∧ Mode.ofField (5#3 ++ n) = some .disp ∧
    Mode.ofField (6#3 ++ n) = some .index := by decide

/-- The fields with mode bits 7 (30 R133). -/
theorem Mode.ofField_seven : Mode.ofField 0x38 = some .absW ∧ Mode.ofField 0x39 = some .absL ∧
    Mode.ofField 0x3A = some .pcDisp ∧ Mode.ofField 0x3B = some .pcIndex ∧ Mode.ofField 0x3C = some .imm := by decide

theorem Ea.mode_ofField (e : Ea) : Mode.ofField e.field = some e.mode := by
  cases e with
  | absW | absL | pcDisp | pcIndex | immB | immW | immL =>
    obtain ⟨habsW, habsL, hpcDisp, hpcIndex, himm⟩ := Mode.ofField_seven
    assumption
  | dn n | an n | ind n | postInc n | preDec n | disp n | index n =>
    obtain ⟨hdn, han, hind, hpost, hpre, hdisp, hindex⟩ := Mode.ofField_append n
    assumption

theorem Ea.field_reg (m n : BitVec 3) : (m ++ n).extractLsb' 0 3 = n ∧ (m ++ n).extractLsb' 3 3 = m :=
  ⟨BitVec.extractLsb'_append_eq_right, BitVec.extractLsb'_append_eq_left⟩

theorem Ea.ofField_field {e : Ea} {sz : Size} (h : e.sizeFits sz = true) :
    Ea.ofField e.field sz e.exts = .ok e := by
  unfold Ea.ofField
  rw [e.mode_ofField]
  cases e with
  | dn n | an n | ind n | postInc n | preDec n | disp n => simp [Ea.mode, Ea.field, Ea.exts, Ea.field_reg]
  | index n x => simp [Ea.mode, Ea.field, Ea.exts, Ea.field_reg, Brief.ofWord_word]
  | absW | pcDisp => rfl
  | pcIndex x => simp [Ea.mode, Ea.exts, Brief.ofWord_word]
  | absL a => simp [Ea.mode, Ea.exts, longWords, longWords_join]
  | immB v | immW v | immL v =>
    cases sz <;> simp_all [Ea.mode, Ea.exts, Ea.sizeFits, longWords, longWords_join, extractLsb'_low_piece]

/-- A descriptor has as many extension words as its mode takes at its size (30 R133). -/
theorem Ea.exts_length {e : Ea} {sz : Size} (h : e.sizeFits sz = true) : e.exts.length = e.mode.extWords sz := by
  cases e with
  | immB | immW | immL => cases sz <;> simp_all [Ea.sizeFits, Ea.exts, Ea.mode, Mode.extWords, longWords]
  | _ => rfl

/-- What a reader of an EA field answers has the mode of the field, and the size. -/
theorem Ea.of_ofField {f : BitVec 6} {sz : Size} {es : List Word} {e : Ea} (h : Ea.ofField f sz es = .ok e) :
    Mode.ofField f = some e.mode ∧ e.sizeFits sz = true := by
  unfold Ea.ofField at h
  split at h
  case h_7 | h_11 =>
    rename_i x hmode
    cases hb : Brief.ofWord x with
    | none => simp [hb] at h
    | some b =>
      simp only [hb, Except.ok.injEq] at h
      subst h
      exact ⟨hmode, rfl⟩
  case h_15 => cases h
  all_goals
    rename_i hmode
    cases h
    exact ⟨hmode, rfl⟩

end Sys2Proof
end

section
/-! PROOFS. The decoder reads back what the encoder writes (30_encoding.md R159): the encoded opcode word is matched by
its row, alone or by its extension word, and each layout's reader finds its operand fields again. -/

namespace Sys2Proof

open Machine (mem_candidates_iff)

/-! ### The extension words of an instruction and those of its EAs (30 R138) -/

/-- The extension words before those of the EAs. -/
def Args.instrExts (r : Row) : Args → List Word
  | .maskEa m _ | .eaMask _ m => [m]
  | .regDisp _ d | .condDisp16 _ d | .disp16 d | .word d => [d]
  | .immBReg v _ => [v.setWidth 16]
  | .immWReg v _ => [v]
  | .immReg v _ | .condDisp32 _ v | .disp32 v | .long v => longWords v
  | .mul _ x => [r.extPat ||| regAt x 12]
  | .div _ x => [r.extPat ||| regAt x 12 ||| regAt x 0]
  | .rem _ w x => [r.extPat ||| regAt x 12 ||| regAt w 0]
  | .bitEa n _ => [n.setWidth 16]
  | .wordWord x v => [x, v]
  | .wordEa x _ => [x]
  | .ctrl y code => [y.bits ++ code]
  | _ => []

/-- The extension words of the EAs. -/
def Args.eaExts : Args → List Word
  | .moveEa src dst => src.exts ++ dst.exts
  | .eaReg e _ | .regEa _ e | .quickEa _ e | .maskEa _ e | .eaMask e _ | .ea e => e.exts
  | .mul e _ | .div e _ | .rem e _ _ | .bitEa _ e | .wordEa _ e => e.exts
  | _ => []

theorem Args.exts_eq (r : Row) (a : Args) : a.exts r = a.instrExts r ++ a.eaExts := by
  cases a <;> simp [Args.exts, Args.instrExts, Args.eaExts]

theorem Args.instrExts_length (r : Row) (a : Args) : (a.instrExts r).length = a.form.extWords := by
  cases a <;> rfl

/-! ### The opcode word (30 R132, R141) -/

/-- The opcode word of operand fields under a row. -/
def Op.wordOf (op : Op) (a : Args) : Word := op.row.pat ||| a.fieldBits

/-- An operand field of the opcode word is that of the operands' bits. -/
theorem Op.wordOf_field {op : Op} {lo len : Nat} (h : (lo, len) ∈ op.row.form.fields) (a : Args) :
    (op.wordOf a).extractLsb' lo len = a.fieldBits.extractLsb' lo len := by
  simp [Op.wordOf, BitVec.extractLsb'_or, (op.fields_clear _ h).1]

/-- The bits of the operands lie outside the mask of their row. -/
theorem Op.fieldBits_and_mask {op : Op} {a : Args} (h : a.form = op.row.form) : a.fieldBits &&& op.row.mask = 0 := by
  have hclear : ∀ f ∈ a.form.fields, op.row.mask.extractLsb' f.1 f.2 = 0 := fun f hf => (op.fields_clear f (h ▸ hf)).2
  have low {n : Nat} (x : BitVec n) (hx : op.row.mask.extractLsb' 0 n = 0) :
      (x.setWidth 16 : Word) &&& op.row.mask = 0 := by
    rw [setWidth_eq_shiftLeft_zero]
    exact piece_and_eq_zero x 0 hx
  cases a <;> simp only [Args.form, Form.fields, List.forall_mem_cons, List.not_mem_nil, false_implies, implies_true,
    and_true] at hclear <;> simp [Args.fieldBits, regAt, BitVec.and_or_distrib_right, piece_and_eq_zero, low, hclear]

theorem Op.wordOf_and_mask {op : Op} {a : Args} (h : a.form = op.row.form) :
    op.wordOf a &&& op.row.mask = op.row.pat := by
  simp [Op.wordOf, BitVec.and_or_distrib_right, op.pat_and_mask, Op.fieldBits_and_mask h]

/-! ### The fields of the opcode word -/

/-- The descriptor of the EA field 5:0. -/
def Args.eaOf : Args → Option Ea
  | .moveEa e _ | .eaReg e _ | .regEa _ e | .quickEa _ e | .maskEa _ e | .eaMask e _ | .ea e => some e
  | .mul e _ | .div e _ | .rem e _ _ | .bitEa _ e | .wordEa _ e => some e
  | _ => none

theorem Args.eaOf_isSome (a : Args) : a.eaOf.isSome = a.form.hasEa := by cases a <;> rfl

theorem Op.eaField_wordOf {op : Op} {a : Args} {e : Ea} (hform : a.form = op.row.form) (he : a.eaOf = some e) :
    eaField (op.wordOf a) = e.field := by
  have hfield : (0, 6) ∈ a.form.fields → eaField (op.wordOf a) = eaField a.fieldBits :=
    fun hf => Op.wordOf_field (hform ▸ hf) a
  cases a <;> cases he <;> rw [hfield (by simp [Args.form, Form.fields])] <;>
    simp (disch := omega) [eaField, Args.fieldBits, regAt, BitVec.extractLsb'_or, extractLsb'_piece_of_disjoint,
      extractLsb'_low_piece]

/-- A mode field and a register field side by side are the EA field. -/
theorem field_join (f : BitVec 6) : f.extractLsb' 3 3 ++ f.extractLsb' 0 3 = f :=
  (BitVec.extractLsb'_append_extractLsb'_eq_extractLsb' (by omega)).trans BitVec.extractLsb'_eq_self

theorem Op.moveDstField_wordOf {op : Op} {src dst : Ea} (hform : op.row.form = .moveEa) :
    moveDstField (op.wordOf (.moveEa src dst)) = dst.field := by
  have hmode := op.wordOf_field (lo := 6) (len := 3) (by simp [hform, Form.fields]) (.moveEa src dst)
  have hreg := op.wordOf_field (lo := 9) (len := 3) (by simp [hform, Form.fields]) (.moveEa src dst)
  simp (disch := omega) [moveDstField, hmode, hreg, Args.fieldBits, regAt, BitVec.extractLsb'_or, extractLsb'_piece,
    extractLsb'_piece_of_disjoint, extractLsb'_low_piece_of_disjoint, field_join]

/-! ### Reading the operands back (30 R148) -/

/-- The fixed bits of an extension word are clear over its registers. -/
theorem Op.extPat_clear (op : Op) : op.row.extPat.extractLsb' 12 3 = 0 ∧ op.row.extPat.extractLsb' 0 3 = 0 ∧
    op.row.extPat &&& 0x8FFF = op.row.extPat ∧ op.row.extPat &&& 0x8FF8 = op.row.extPat := by
  obtain ⟨-, h | h⟩ := op.ext_eq <;> rw [h] <;> decide

/-- The extension word of a MUL.L holds Dx at 14:12 and fits the pattern of its row (43 R300). -/
theorem Op.mul_extWord (op : Op) (x : RegNo) : (op.row.extPat ||| regAt x 12).reg 12 = x ∧
    (ExtSel.mk op.row.extPat 0x8FFF .any).fits (op.row.extPat ||| regAt x 12) = true := by
  obtain ⟨h12, -, hpat, -⟩ := op.extPat_clear
  have hx : (x.setWidth 16 : Word) <<< 12 &&& 0x8FFF = 0 := piece_and_eq_zero x 12 rfl
  constructor
  · simp [Word.reg, regAt, BitVec.extractLsb'_or, h12, extractLsb'_piece]
  · simp only [ExtSel.fits, regAt, BitVec.and_or_distrib_right, hpat, hx]
    simp

/-- The extension word of a DIV.L or REM.L holds Dx at 14:12 and Dw at 2:0, and fits the pattern of the DIV.L or that of
the REM.L row (43 R301). -/
theorem Op.div_extWord (op : Op) (x w : RegNo) : (op.row.extPat ||| regAt x 12 ||| regAt w 0).reg 12 = x ∧
    (op.row.extPat ||| regAt x 12 ||| regAt w 0).reg 0 = w ∧
    (ExtSel.mk op.row.extPat 0x8FF8 (if x = w then .same else .differ)).fits
      (op.row.extPat ||| regAt x 12 ||| regAt w 0) = true := by
  obtain ⟨h12, h0, -, hpat⟩ := op.extPat_clear
  have hdx : (op.row.extPat ||| regAt x 12 ||| regAt w 0).reg 12 = x := by
    simp (disch := omega) [Word.reg, regAt, BitVec.extractLsb'_or, h12, extractLsb'_piece,
      extractLsb'_low_piece_of_disjoint]
  have hdw : (op.row.extPat ||| regAt x 12 ||| regAt w 0).reg 0 = w := by
    simp (disch := omega) [Word.reg, regAt, BitVec.extractLsb'_or, h0, extractLsb'_piece_of_disjoint,
      extractLsb'_low_piece]
  have hx : regAt x 12 &&& 0x8FF8 = 0 := piece_and_eq_zero x 12 rfl
  have hw : regAt w 0 &&& 0x8FF8 = 0 := piece_and_eq_zero w 0 rfl
  refine ⟨hdx, hdw, ?_⟩
  unfold ExtSel.fits
  rw [hdx, hdw, BitVec.and_or_distrib_right, BitVec.and_or_distrib_right, hpat, hx, hw]
  by_cases h : x = w <;> simp [h]

theorem Ea.legal_iff {e : Ea} {set : Option ModeSet} {sz : Size} : e.legal set sz = true ↔
    ∃ s, set = some s ∧ s.has e.mode = true ∧ e.sizeFits sz = true := by
  cases set <;> simp [Ea.legal]

theorem Ea.sizeFits_of_legal {e : Ea} {set : Option ModeSet} {sz : Size} (h : e.legal set sz = true) :
    e.sizeFits sz = true := by
  obtain ⟨-, -, -, hfits⟩ := Ea.legal_iff.mp h
  exact hfits

theorem Op.readArgs_wordOf {op : Op} {isa : Isa} {a : Args} (hform : a.form = op.row.form)
    (hlegal : a.legal op.row isa = true) :
    op.row.readArgs (op.wordOf a) (a.instrExts op.row) a.eaExts = .ok a := by
  have hfield : ∀ f ∈ a.form.fields, (op.wordOf a).extractLsb' f.1 f.2 = a.fieldBits.extractLsb' f.1 f.2 :=
    fun f hf => Op.wordOf_field (hform ▸ hf) a
  unfold Row.readArgs
  rw [← hform]
  cases a <;> simp only [Args.form, Form.fields, List.forall_mem_cons, List.not_mem_nil, false_implies, implies_true,
    and_true] at hfield
  case moveEa src dst =>
    simp only [Args.legal, Bool.and_eq_true] at hlegal
    obtain ⟨⟨hsrc, hdst⟩, -⟩ := hlegal
    have hsrc := Ea.sizeFits_of_legal hsrc
    have hdst := Ea.sizeFits_of_legal hdst
    simp [Args.form, Args.instrExts, Args.eaExts, Op.eaField_wordOf hform rfl, Op.moveDstField_wordOf hform.symm,
      src.mode_ofField, ← Ea.exts_length hsrc, Ea.ofField_field hsrc, Ea.ofField_field hdst]
  case mul | div | rem =>
    have hfits := Ea.sizeFits_of_legal (e := ‹Ea›) (set := op.row.ea) (sz := op.row.eaSize) (by
      simp_all [Args.legal])
    simp [Args.form, Args.instrExts, Args.eaExts, Op.eaField_wordOf hform rfl, op.mul_extWord,
      op.div_extWord, Ea.ofField_field hfits, Except.map]
  case eaReg | regEa | quickEa | maskEa | eaMask | ea | bitEa | wordEa =>
    simp [Args.form, Args.instrExts, Args.eaExts, Op.eaField_wordOf hform rfl, Word.reg, hfield, Args.fieldBits, regAt,
      BitVec.extractLsb'_or, extractLsb'_piece, extractLsb'_low_piece, extractLsb'_low_piece_of_disjoint,
      Ea.ofField_field (Ea.sizeFits_of_legal hlegal), Except.map]
  case ctrl r code =>
    have hreg : (r.bits ++ code).extractLsb' 12 4 = r.bits := BitVec.extractLsb'_append_eq_left
    have hcode : (r.bits ++ code).extractLsb' 0 12 = code := BitVec.extractLsb'_append_eq_right
    simp [Args.form, Args.instrExts, hreg, hcode, GReg.ofBits_bits]
  all_goals
    simp (disch := omega) [Args.form, Args.instrExts, Word.reg, hfield, Args.fieldBits, regAt, BitVec.extractLsb'_or,
      extractLsb'_piece, extractLsb'_piece_of_disjoint, extractLsb'_low_piece, extractLsb'_low_piece_of_disjoint,
      Cond.ofCode_code, longWords, longWords_join]

/-! ### The gates of the row (30 R142 to R144) -/

/-- The exclusions of a branch layout, by its fields: a condition code of Bcc, and a byte of the byte form. -/
def Form.admits (w : Word) : Form → Bool
  | .condDisp8 => (Cond.ofCode (w.extractLsb' 8 4)).branches && byteDisp (w.extractLsb' 0 8)
  | .condDisp16 | .condDisp32 => (Cond.ofCode (w.extractLsb' 8 4)).branches
  | .disp8 => byteDisp (w.extractLsb' 0 8)
  | _ => true

/-- Among the words of line 6, those with condition code 0 or 1 are no Bcc. -/
theorem cond_not_branches_iff {w : Word} (hline : w.extractLsb' 12 4 = 6) :
    w &&& 0xFE00 = 0x6000 ↔ (Cond.ofCode (w.extractLsb' 8 4)).branches = false := by
  rw [Word.eq_iff_branch_fields]
  simp only [BitVec.extractLsb'_and, hline]
  generalize w.extractLsb' 8 4 = c
  simp
  revert c
  decide

theorem byte_and_ones (d : Byte) : d &&& 255#8 = d := BitVec.and_allOnes

theorem nibble_and_ones (c : BitVec 4) : c &&& 15#4 = c := BitVec.and_allOnes

/-- A word with the fixed bits of a row is of its line. -/
theorem Op.line_of_pat {op : Op} {w : Word} (h : w &&& op.row.mask = op.row.pat) :
    w.extractLsb' 12 4 = op.row.pat.extractLsb' 12 4 := by
  rw [← Row.field_of_pat h, op.mem_lineOps.1]
  exact (nibble_and_ones _).symm

/-- The words of line 6 with displacement byte `d`, under any condition code. -/
theorem branch_disp_iff {w : Word} (d : Byte) (hline : w.extractLsb' 12 4 = 6) :
    w &&& 0xF0FF = 0x6000 ||| d.setWidth 16 ↔ w.extractLsb' 0 8 = d := by
  rw [Word.eq_iff_branch_fields]
  simp [BitVec.extractLsb'_and, BitVec.extractLsb'_or, hline, byte_and_ones, extractLsb'_low_piece d (by omega),
    extractLsb'_low_piece_of_disjoint d (show 8 ≤ 12 by omega), extractLsb'_low_piece_of_disjoint d (Nat.le_refl 8)]

/-- The words of a BRA or BSR row with displacement byte `d`. -/
theorem fixed_disp_iff {w p : Word} (d : Byte) (h : w &&& 0xFF00 = p) :
    w &&& 0xFFFF = p ||| d.setWidth 16 ↔ w.extractLsb' 0 8 = d := by
  have hall : w &&& 0xFFFF = w := BitVec.and_allOnes
  rw [hall, Word.eq_iff_branch_fields]
  simp [← h, BitVec.extractLsb'_and, BitVec.extractLsb'_or, nibble_and_ones, extractLsb'_low_piece d (by omega),
    extractLsb'_low_piece_of_disjoint d (show 8 ≤ 12 by omega), extractLsb'_low_piece_of_disjoint d (Nat.le_refl 8)]

/-- A word with the fixed bits of a row is excluded from it exactly by its branch fields. -/
theorem Op.exclude_iff {op : Op} {w : Word} (h : w &&& op.row.mask = op.row.pat) :
    (∀ e ∈ op.row.exclude, w &&& e.2 ≠ e.1) ↔ op.row.form.admits w = true := by
  obtain ⟨hexclude, hline, hmask⟩ := op.exclude_eq
  rw [← Op.line_of_pat h, hexclude] at hline
  rw [hexclude]
  cases hf : op.row.form with
  | condDisp8 =>
    have hline := hline (by simp [hf, Form.excluded])
    have h0 := branch_disp_iff 0 hline
    have hff := branch_disp_iff 0xFF hline
    have hc := cond_not_branches_iff hline
    simp_all [Form.excluded, Form.admits, byteDisp]
  | condDisp16 | condDisp32 =>
    have hline := hline (by simp [hf, Form.excluded])
    have hc := cond_not_branches_iff hline
    simp_all [Form.excluded, Form.admits]
  | disp8 =>
    rw [hmask hf] at h
    have h0 := fixed_disp_iff 0 h
    have hff := fixed_disp_iff 0xFF h
    simp_all [Form.excluded, Form.admits, byteDisp]
  | _ => simp [Form.excluded, Form.admits]

/-- The opcode word of legal operands is one that no branch layout excludes. -/
theorem Op.admits_wordOf {op : Op} {isa : Isa} {a : Args} (hform : a.form = op.row.form)
    (hlegal : a.legal op.row isa = true) : op.row.form.admits (op.wordOf a) = true := by
  have hfield : ∀ f ∈ a.form.fields, (op.wordOf a).extractLsb' f.1 f.2 = a.fieldBits.extractLsb' f.1 f.2 :=
    fun f hf => Op.wordOf_field (hform ▸ hf) a
  rw [← hform]
  cases a with
  | condDisp8 c d =>
    simp only [Args.form, Form.fields, List.forall_mem_cons] at hfield
    obtain ⟨hcond, hdisp, -⟩ := hfield
    simpa (disch := omega) [Args.form, Form.admits, hcond, hdisp, Args.fieldBits, BitVec.extractLsb'_or,
      extractLsb'_piece, extractLsb'_piece_of_disjoint, extractLsb'_low_piece, extractLsb'_low_piece_of_disjoint,
      Cond.ofCode_code, Args.legal] using hlegal
  | condDisp16 c d | condDisp32 c d =>
    have hcond := hfield (8, 4) (by simp [Args.form, Form.fields])
    simpa [Args.form, Form.admits, hcond, Args.fieldBits, extractLsb'_piece, Cond.ofCode_code, Args.legal] using hlegal
  | disp8 d =>
    have hdisp := hfield (0, 8) (by simp [Args.form, Form.fields])
    simpa [Args.form, Form.admits, hdisp, Args.fieldBits, extractLsb'_low_piece, Args.legal] using hlegal
  | _ => rfl

theorem Args.legal_eaOf {r : Row} {isa : Isa} {a : Args} {e : Ea} (he : a.eaOf = some e)
    (hlegal : a.legal r isa = true) : e.legal r.ea r.eaSize = true := by
  cases a <;> cases he <;> simp_all [Args.legal]

/-- The opcode word of legal operands has legal modes. -/
theorem Op.modesLegal_wordOf {op : Op} {isa : Isa} {a : Args} (hform : a.form = op.row.form)
    (hlegal : a.legal op.row isa = true) : op.row.modesLegal isa.tier (op.wordOf a) = true := by
  refine (Row.modesLegal_iff ..).mpr fun set hset => ?_
  obtain ⟨hea, hdst⟩ := op.ea_isSome
  obtain ⟨e, he⟩ := Option.isSome_iff_exists.mp (a.eaOf_isSome.trans (by rw [hform, ← hea, hset]; rfl))
  obtain ⟨s, hs, hhas, -⟩ := Ea.legal_iff.mp (Args.legal_eaOf he hlegal)
  cases hset.symm.trans hs
  refine ⟨e.mode, by rw [Op.eaField_wordOf hform he, e.mode_ofField], hhas, fun dset hdset => ?_⟩
  have hmove : op.row.form = .moveEa := by
    by_contra hne
    simp [hdst, hne] at hdset
  cases a with
  | moveEa src dst =>
    cases he
    simp only [Args.legal, Bool.and_eq_true] at hlegal
    obtain ⟨⟨-, hdstLegal⟩, hcombo⟩ := hlegal
    obtain ⟨d, hd, hdhas, -⟩ := Ea.legal_iff.mp hdstLegal
    cases hdset.symm.trans hd
    exact ⟨dst.mode, by rw [Op.moveDstField_wordOf hmove, dst.mode_ofField], hdhas, hcombo⟩
  | _ => cases hform.trans hmove

theorem Op.hits_wordOf {op : Op} {isa : Isa} {a : Args} (hform : a.form = op.row.form)
    (hvis : op.row.visible isa = true) (hlegal : a.legal op.row isa = true) :
    op.row.hits isa (op.wordOf a) = true := by
  have hmask := Op.wordOf_and_mask hform
  exact (Row.hits_iff ..).mpr
    ⟨hmask, hvis, (Op.exclude_iff hmask).mpr (Op.admits_wordOf hform hlegal), Op.modesLegal_wordOf hform hlegal⟩

/-! ### The definition that is found (30 R145, R146) -/

theorem Op.mem_candidates_wordOf {op : Op} {isa : Isa} {a : Args} (hform : a.form = op.row.form)
    (hvis : op.row.visible isa = true) (hlegal : a.legal op.row isa = true) : op ∈ candidates isa (op.wordOf a) := by
  obtain ⟨-, hline⟩ := op.mem_lineOps
  rw [← Op.line_of_pat (Op.wordOf_and_mask hform)] at hline
  exact mem_candidates_iff.mpr ⟨hline, Op.hits_wordOf hform hvis hlegal⟩

/-- The row of MUL.L, DIV.L and REM.L fits the extension word of its own operands. -/
theorem Op.fitsExt_instrExts {op : Op} {isa : Isa} {a : Args} (hform : a.form = op.row.form)
    (hlegal : a.legal op.row isa = true) (hext : op.row.ext.isSome = true) :
    ∃ e es, a.instrExts op.row = e :: es ∧ op.fitsExt e = true := by
  obtain ⟨hsel, -⟩ := op.ext_eq
  rw [← hform] at hsel
  cases a with
  | mul e x => 
    obtain ⟨-, hfits⟩ := op.mul_extWord x
    exact ⟨_, [], rfl, by simpa [Op.fitsExt, hsel, Args.form, Form.extSel] using hfits⟩
  | div e x =>
    obtain ⟨-, -, hfits⟩ := op.div_extWord x x
    exact ⟨_, [], rfl, by simpa [Op.fitsExt, hsel, Args.form, Form.extSel] using hfits⟩
  | rem e w x =>
    obtain ⟨-, -, hfits⟩ := op.div_extWord x w
    have hne : x ≠ w := fun heq => by simp [Args.legal, heq] at hlegal
    exact ⟨_, [], rfl, by simpa [Op.fitsExt, hsel, Args.form, Form.extSel, hne] using hfits⟩
  | _ => simp [hsel, Args.form, Form.extSel] at hext

/-- The opcode word and the extension words of legal operands select their row. -/
theorem selectOp_wordOf {op : Op} {isa : Isa} {a : Args} (hform : a.form = op.row.form)
    (hvis : op.row.visible isa = true) (hlegal : a.legal op.row isa = true) (rest : List Word) :
    selectOp isa (op.wordOf a) (a.instrExts op.row ++ rest) = .ok op := by
  have hmem := Op.mem_candidates_wordOf hform hvis hlegal
  unfold selectOp
  cases hext : op.row.ext with
  | none => rw [lookup_eq_found hmem hext]
  | some x =>
    have hsome : op.row.ext.isSome = true := by rw [hext]; rfl
    obtain ⟨hnil, -⟩ | ⟨op', hone, hnone, -⟩ | ⟨-, hall, hlookup⟩ := lookup_cases isa (op.wordOf a)
    · simp [hnil] at hmem
    · rw [hone, List.mem_singleton] at hmem
      simp [hmem ▸ hext] at hnone
    · obtain ⟨e, es, hcons, hfits⟩ := Op.fitsExt_instrExts hform hlegal hsome
      have hselect : selectRow (candidates isa (op.wordOf a)) e = some op := by
        rw [selectRow_eq_find]
        obtain ⟨b, hb⟩ := Option.isSome_iff_exists.mp (List.find?_isSome.mpr ⟨op, hmem, hfits⟩)
        rw [hb, candidates_fits_unique (List.mem_of_find?_eq_some hb) hmem (List.find?_some hb) hfits]
      simp [hlookup, hcons, hselect]

end Sys2Proof
end

section
/-! PROOFS. What the decoder accepts (30_encoding.md R107, R143): the definition it selects matches the words, and the
operands it reads have the modes, the sizes and the branch fields that the match has checked. -/

namespace Sys2Proof

open Machine (mem_candidates_iff)

/-! ### Operand fields read from a word (30 R132, R138) -/

/-- What a branch layout admits, of the operands read (45 R360, R361). -/
def Args.admitted : Args → Bool
  | .condDisp8 c d => c.branches && byteDisp d
  | .condDisp16 c _ | .condDisp32 c _ => c.branches
  | .disp8 d => byteDisp d
  | _ => true

/-- The operands are those of the opcode word and the first extension word: the layout, the modes of the EA fields with
immediates of the row's size, the branch fields, and the registers of a REM.L. -/
structure Args.ReadFrom (r : Row) (w : Word) (is : List Word) (a : Args) : Prop where
  form : a.form = r.form
  ea : ∀ e, a.eaOf = some e → Mode.ofField (eaField w) = some e.mode ∧ e.sizeFits r.eaSize = true
  dst : ∀ src dst, a = .moveEa src dst → Mode.ofField (moveDstField w) = some dst.mode ∧ dst.sizeFits r.eaSize = true
  admitted : a.admitted = r.form.admits w
  rem : ∀ e dw dx, a = .rem e dw dx → (is.headD 0).reg 0 = dw ∧ (is.headD 0).reg 12 = dx

theorem Except.map_eq_ok {ε α β : Type} {f : α → β} {x : Except ε α} {b : β} (h : x.map f = .ok b) :
    ∃ a, x = .ok a ∧ f a = b := by
  cases x with
  | error e => cases h
  | ok a => exact ⟨a, rfl, Except.ok.inj h⟩

/-- Operands with an EA of their own are read from the word if the EA is. -/
theorem Args.ReadFrom.of_ea {r : Row} {w : Word} {is es : List Word} {a : Args} {e : Ea} (hform : a.form = r.form)
    (he : a.eaOf = some e) (h : Ea.ofField (eaField w) r.eaSize es = .ok e) (hmove : r.form ≠ .moveEa)
    (hadmitted : a.admitted = r.form.admits w)
    (hrem : ∀ e dw dx, a = .rem e dw dx → (is.headD 0).reg 0 = dw ∧ (is.headD 0).reg 12 = dx) :
    a.ReadFrom r w is where
  form := hform
  ea _ he' := Option.some.inj (he.symm.trans he') ▸ Ea.of_ofField h
  dst _ _ heq := absurd (hform.symm.trans (heq ▸ rfl)) hmove
  admitted := hadmitted
  rem := hrem

/-- Operands without an EA are read from the word if their branch fields are. -/
theorem Args.ReadFrom.of_no_ea {r : Row} {w : Word} {is : List Word} {a : Args} (hform : a.form = r.form)
    (he : r.form.hasEa = false) (hadmitted : a.admitted = r.form.admits w) : a.ReadFrom r w is := by
  have hnone : a.eaOf = none := by
    rw [← Option.not_isSome_iff_eq_none, a.eaOf_isSome, hform, he]
    simp
  refine ⟨hform, fun e h => ?_, fun src dst h => ?_, hadmitted, fun e dw dx h => ?_⟩
  · simp [hnone] at h
  · simp [h, Args.eaOf] at hnone
  · simp [h, Args.eaOf] at hnone

theorem Row.readArgs_ok {r : Row} {w : Word} {is es : List Word} {a : Args} (hlen : is.length = r.form.extWords)
    (h : r.readArgs w is es = .ok a) : a.ReadFrom r w is := by
  unfold Row.readArgs at h
  cases hf : r.form <;> rw [hf] at h hlen
  case moveEa =>
    obtain rfl := List.eq_nil_of_length_eq_zero hlen
    simp only at h
    split at h
    case h_1 src dst hsrc hdst =>
      cases h
      refine ⟨hf.symm, fun e he => ?_, fun src' dst' heq => ?_, by rw [hf]; rfl, nofun⟩
      · cases he
        exact Ea.of_ofField hsrc
      · cases heq
        exact Ea.of_ofField hdst
    all_goals cases h
  case eaReg | regEa | quickEa | ea =>
    obtain rfl := List.eq_nil_of_length_eq_zero hlen
    obtain ⟨e, he, rfl⟩ := Except.map_eq_ok h
    exact .of_ea hf.symm rfl he (by simp [hf]) (by rw [hf]; rfl) nofun
  case maskEa | eaMask | bitEa | wordEa | mul | div =>
    obtain ⟨x, rfl⟩ := List.length_eq_one_iff.mp hlen
    obtain ⟨e, he, rfl⟩ := Except.map_eq_ok h
    exact .of_ea hf.symm rfl he (by simp [hf]) (by rw [hf]; rfl) nofun
  case rem =>
    obtain ⟨x, rfl⟩ := List.length_eq_one_iff.mp hlen
    obtain ⟨e, he, rfl⟩ := Except.map_eq_ok h
    refine .of_ea hf.symm rfl he (by simp [hf]) (by rw [hf]; rfl) fun e dw dx heq => ?_
    cases heq
    exact ⟨rfl, rfl⟩
  case quick8 | shiftImm | shiftReg | reg | regReg | condDisp8 | disp8 | condReg | fixed | vector =>
    obtain rfl := List.eq_nil_of_length_eq_zero hlen
    cases h
    exact .of_no_ea hf.symm (by rw [hf]; rfl) (by rw [hf]; rfl)
  case regDisp | immBReg | immWReg | condDisp16 | disp16 | word | ctrl =>
    obtain ⟨x, rfl⟩ := List.length_eq_one_iff.mp hlen
    cases h
    exact .of_no_ea hf.symm (by rw [hf]; rfl) (by rw [hf]; rfl)
  case immReg | condDisp32 | disp32 | long | wordWord =>
    obtain ⟨x, y, rfl⟩ := List.length_eq_two.mp hlen
    cases h
    exact .of_no_ea hf.symm (by rw [hf]; rfl) (by rw [hf]; rfl)

theorem Instr.of_make {op : Op} {a : Args} {i : Instr} (h : Instr.make op a = some i) : i.op = op ∧ i.args = a := by
  cases op <;> simp only [Instr.make, takeMoveEa, takeEaReg, takeRegEa, takeQuick8, takeQuickEa, takeShiftImm, takeMaskEa,
    takeEaMask, takeEa, takeReg, takeRegDisp, takeImmBReg, takeImmWReg, takeImmReg, takeRegReg, takeShiftReg, takeMul,
    takeDiv, takeRem, takeBitEa, takeCondDisp8, takeCondDisp16, takeCondDisp32, takeDisp8, takeDisp16, takeDisp32,
    takeCondReg, takeFixed, takeWord, takeLong, takeWordWord, takeWordEa, takeVector, takeCtrl] at h <;>
    split at h <;> cases h <;> exact ⟨rfl, rfl⟩

/-- The EA extension words of the operands read are as many as the opcode word says (30 R135). -/
theorem Args.ReadFrom.eaWords {op : Op} {w : Word} {is : List Word} {a : Args} (h : a.ReadFrom op.row w is) :
    op.row.eaWords w = a.eaExts.length := by
  obtain ⟨hea, hdst⟩ := op.ea_isSome
  rw [← h.form] at hea hdst
  unfold Row.eaWords
  cases he : a.eaOf with
  | none =>
    have hnone : op.row.ea = none := by rw [← Option.not_isSome_iff_eq_none, hea, ← a.eaOf_isSome, he]; simp
    rw [hnone]
    cases a <;> simp_all [Args.eaOf, Args.eaExts]
  | some e =>
    obtain ⟨hmode, hfits⟩ := h.ea e he
    obtain ⟨set, hset⟩ := Option.isSome_iff_exists.mp (hea.trans (a.eaOf_isSome.symm.trans (by rw [he]; rfl)))
    have hwords : ((Mode.ofField (eaField w)).map fun m => m.extWords op.row.eaSize).getD 0 = e.exts.length := by
      rw [hmode, Ea.exts_length hfits]
      rfl
    rw [hset, hdst, hwords]
    cases a with
    | moveEa src dst =>
      obtain ⟨hdmode, hdfits⟩ := h.dst src dst rfl
      cases he
      simp [Args.form, Args.eaExts, hdmode, Ea.exts_length hdfits]
    | _ => cases he <;> rfl

/-! ### What is accepted is legal -/

/-- The definition that is selected is a candidate whose extension pattern fits the word behind the opcode. -/
theorem selectOp_ok {isa : Isa} {w : Word} {rest : List Word} {op : Op} (h : selectOp isa w rest = .ok op) :
    op ∈ candidates isa w ∧ ∀ x, op.row.ext = some x → x.fits (rest.headD 0) = true := by
  unfold selectOp at h
  obtain ⟨-, hl⟩ | ⟨op', hc, hext, hl⟩ | ⟨-, -, hl⟩ := lookup_cases isa w
  · simp [hl] at h
  · simp only [hl, Except.ok.injEq] at h
    subst h
    exact ⟨hc ▸ List.mem_cons_self, fun x hx => by simp [hext] at hx⟩
  · rw [hl] at h
    match rest, h with
    | e :: es, h =>
      simp only [selectRow_eq_find] at h
      split at h
      case h_1 => cases h
      case h_2 op' hfind =>
        cases h
        refine ⟨List.mem_of_find?_eq_some hfind, fun x hx => ?_⟩
        simpa [Op.fitsExt, hx] using List.find?_some hfind

theorem Args.ReadFrom.ea_legal {op : Op} {isa : Isa} {w : Word} {is : List Word} {a : Args} {e : Ea}
    (h : a.ReadFrom op.row w is) (hmodes : op.row.modesLegal isa.tier w = true) (he : a.eaOf = some e) :
    e.legal op.row.ea op.row.eaSize = true := by
  obtain ⟨hea, -⟩ := op.ea_isSome
  obtain ⟨hmode, hfits⟩ := h.ea e he
  obtain ⟨set, hset⟩ := Option.isSome_iff_exists.mp (hea.trans (h.form ▸ a.eaOf_isSome.symm.trans (by rw [he]; rfl)))
  obtain ⟨m, hm, hhas, -⟩ := (Row.modesLegal_iff ..).mp hmodes set hset
  cases hmode.symm.trans hm
  exact Ea.legal_iff.mpr ⟨set, hset, hhas, hfits⟩

theorem Args.ReadFrom.legal {op : Op} {isa : Isa} {w : Word} {is : List Word} {a : Args} (h : a.ReadFrom op.row w is)
    (hhits : op.row.hits isa w = true) (hext : ∀ x, op.row.ext = some x → x.fits (is.headD 0) = true) :
    a.legal op.row isa = true := by
  obtain ⟨hpat, -, hexclude, hmodes⟩ := (Row.hits_iff ..).mp hhits
  have hea {e : Ea} (he : a.eaOf = some e) := h.ea_legal hmodes he
  have hadmitted := h.admitted.trans ((Op.exclude_iff hpat).mp hexclude)
  cases a with
  | moveEa src dst =>
    have hsrc := hea rfl
    obtain ⟨set, hset, -, -⟩ := Ea.legal_iff.mp hsrc
    obtain ⟨-, hdst⟩ := op.ea_isSome
    rw [← h.form] at hdst
    obtain ⟨m, hm, -, hcombo⟩ := (Row.modesLegal_iff ..).mp hmodes set hset
    obtain ⟨d, hd, hhas, hcombo⟩ := hcombo _ hdst
    obtain ⟨hdmode, hdfits⟩ := h.dst src dst rfl
    cases (h.ea src rfl).1.symm.trans hm
    cases hdmode.symm.trans hd
    have hdstLegal : dst.legal op.row.dst op.row.eaSize = true := Ea.legal_iff.mpr ⟨_, hdst, hhas, hdfits⟩
    simp [Args.legal, hsrc, hdstLegal, hcombo]
  | eaReg | regEa | quickEa | maskEa | eaMask | ea | mul | div | bitEa | wordEa => exact hea rfl
  | rem e dw dx =>
    obtain ⟨hdw, hdx⟩ := h.rem e dw dx rfl
    have hfits := hext _ (op.ext_eq.1.trans (by rw [← h.form]; rfl))
    have hregs : (is.headD 0).reg 12 ≠ (is.headD 0).reg 0 := by simpa using (Bool.and_eq_true_iff.mp hfits).2
    have hne : dw ≠ dx := fun heq => hregs (by rw [hdw, hdx, heq])
    simpa [Args.legal, hne] using hea rfl
  | condDisp8 | condDisp16 | condDisp32 | disp8 => exact hadmitted
  | _ => rfl

/-! ### The round trip (30 R159) -/

/-- The words of an instruction: the opcode word, its own extension words and those of its EAs. -/
theorem encode_eq (i : Instr) : encode i = i.op.wordOf i.args :: (i.args.instrExts i.op.row ++ i.args.eaExts) :=
  congrArg _ (Args.exts_eq _ _)

theorem Op.read_wordOf {isa : Isa} {i : Instr} (h : i.wellFormed isa = true) :
    i.op.read (i.op.wordOf i.args) (i.args.instrExts i.op.row) i.args.eaExts = .ok i := by
  obtain ⟨-, hlegal⟩ := Bool.and_eq_true_iff.mp h
  unfold Op.read
  rw [Op.readArgs_wordOf i.args_form hlegal]
  simp only [i.make_args]

/-- Settles O15: the row of the instruction is selected by its words, takes as many, and reads its operands back. -/
theorem decodeEncodeRoundTrip : Obligations.DecodeEncodeRoundTrip := by
  intro isa i rest h
  obtain ⟨hvis, hlegal⟩ := Bool.and_eq_true_iff.mp h
  have hlen := Args.instrExts_length i.op.row i.args
  rw [i.args_form] at hlen
  have hwords := (Row.readArgs_ok hlen (Op.readArgs_wordOf i.args_form hlegal)).eaWords
  have hselect := selectOp_wordOf i.args_form hvis hlegal (i.args.eaExts ++ rest)
  simp only [encode_eq, List.cons_append, List.append_assoc, decodeWords, hselect, hwords,
    ← hlen]
  simp [Op.read_wordOf h]

/-- A legal instruction has at most two extension words (30 R130). -/
theorem Args.exts_length_le {op : Op} {isa : Isa} {a : Args} (hform : a.form = op.row.form)
    (h : a.legal op.row isa = true) : (a.exts op.row).length ≤ 2 := by
  rw [Args.exts_eq, List.length_append, Args.instrExts_length]
  obtain ⟨-, hdst⟩ := op.ea_isSome
  have hone := op.ea_of_extWords
  rw [← hform] at hone hdst
  cases a with
  | moveEa src dst =>
    simp only [Args.legal, Bool.and_eq_true] at h
    obtain ⟨⟨hsrc, hdstLegal⟩, hcombo⟩ := h
    rw [hdst] at hdstLegal
    simpa [Args.form, Form.extWords, Args.eaExts] using
      Laws.move_exts_le hdstLegal hcombo (Ea.sizeFits_of_legal hsrc)
  | eaReg e _ | regEa _ e | quickEa _ e | ea e => simpa [Args.form, Form.extWords, Args.eaExts] using Laws.ea_exts_le e
  | maskEa _ e | eaMask e _ | mul e _ | div e _ | rem e _ _ | bitEa _ e | wordEa _ e =>
    obtain ⟨-, hset⟩ := hone rfl (by simp [Args.form, Form.extWords])
    obtain ⟨set, hs, hhas, hfits⟩ := Ea.legal_iff.mp (Args.legal_eaOf (e := e) rfl h)
    rw [hs] at hset
    simp only [Option.some.injEq] at hset
    have := Laws.ea_exts_le_one hset (Ea.legal_iff.mpr ⟨set, rfl, hhas, hfits⟩)
    simp only [Args.form, Form.extWords, Args.eaExts]
    omega
  | _ => simp [Args.form, Form.extWords, Args.eaExts]

theorem Op.read_ok {op : Op} {w : Word} {is es : List Word} {i : Instr} (h : op.read w is es = .ok i) :
    i.op = op ∧ op.row.readArgs w is es = .ok i.args := by
  unfold Op.read at h
  split at h
  case h_3 a ha =>
    split at h
    case h_1 j hj =>
      cases h
      obtain ⟨hop, hargs⟩ := Instr.of_make hj
      exact ⟨hop, hargs ▸ ha⟩
    case h_2 => cases h
  all_goals cases h

/-- What the decoder accepts: a definition is selected, the stream is long enough, and its operands are read. -/
theorem decodeWords_ok {isa : Isa} {ws : List Word} {i : Instr} {n : Nat} (h : decodeWords isa ws = .ok (i, n)) :
    ∃ w rest, ws = w :: rest ∧ selectOp isa w rest = .ok i.op ∧
      i.op.row.form.extWords + i.op.row.eaWords w ≤ rest.length ∧
      n = i.op.row.form.extWords + i.op.row.eaWords w + 1 ∧
      ∃ es, i.op.row.readArgs w (rest.take i.op.row.form.extWords) es = .ok i.args := by
  cases ws with
  | nil => cases h
  | cons w rest =>
    simp only [decodeWords] at h
    split at h
    case h_1 => cases h
    case h_2 op hop =>
      split at h
      case isTrue => cases h
      case isFalse hlen =>
        split at h
        case h_1 => cases h
        case h_2 j hread =>
          cases h
          obtain ⟨rfl, hargs⟩ := Op.read_ok hread
          exact ⟨w, rest, rfl, hop, Nat.not_lt.mp hlen, rfl, _, hargs⟩

theorem Form.extWords_of_extSel {f : Form} {p : Word} {x : ExtSel} (h : f.extSel p = some x) : f.extWords = 1 := by
  cases f <;> cases h <;> rfl

/-- Settles O16: the operands that are read are legal by the match, and take the words that the opcode word says. -/
theorem decodedIsLegal : Obligations.DecodedIsLegal := by
  intro isa ws i n h
  obtain ⟨w, rest, rfl, hselect, hle, hn, es, hread⟩ := decodeWords_ok h
  obtain ⟨hmem, hext⟩ := selectOp_ok hselect
  obtain ⟨-, hhits⟩ := mem_candidates_iff.mp hmem
  obtain ⟨-, hvis, -, -⟩ := (Row.hits_iff ..).mp hhits
  have hlen : (rest.take i.op.row.form.extWords).length = i.op.row.form.extWords :=
    List.length_take_of_le (by omega)
  have hfrom := Row.readArgs_ok hlen hread
  have hlegal : i.args.legal i.op.row isa = true := by
    refine hfrom.legal hhits fun x hx => ?_
    rw [Form.extWords_of_extSel (i.op.ext_eq.1.symm.trans hx)]
    cases rest <;> exact hext x hx
  have hencode : n = (encode i).length := by
    rw [encode_eq, List.length_cons, List.length_append, Args.instrExts_length, i.args_form, ← hfrom.eaWords, hn]
  have hexts := Args.exts_length_le i.args_form hlegal
  have hwords : (encode i).length = (i.args.exts i.op.row).length + 1 := List.length_cons
  exact ⟨Bool.and_eq_true_iff.mpr ⟨hvis, hlegal⟩, hencode, by omega, by omega, by simp only [List.length_cons]; omega⟩

end Sys2Proof
end

section
/-! PROOFS. Operands that can be reached (20_memory.md R103 to R106): what reading one leaves alone, the size of the value
read, and the instruction that ends by writing the place it has read. -/

namespace Sys2Proof.Machine

/-! ### The value of an operand has its size (20 R106) -/

@[simp] theorem Size.trunc_trunc (sz : Size) (v : Long) : sz.trunc (sz.trunc v) = sz.trunc v := by
  apply BitVec.eq_of_getLsbD_eq
  intro i _
  simp [Size.trunc_getLsbD]

/-- A value of `n` bytes has no bit above them. -/
theorem joinBytes_getLsbD_of_le (bs : List Byte) {i : Nat} (h : 8 * bs.length ≤ i) : (joinBytes bs).getLsbD i = false := by
  induction bs using List.reverseRecOn generalizing i with
  | nil => simp [joinBytes]
  | append_singleton bs b ih =>
    rw [joinBytes_concat]
    simp only [List.length_append, List.length_singleton] at h
    have hlow : ¬ i < 8 := by omega
    simp [hlow, BitVec.getLsbD_of_ge b i (by omega), ih (i := i - 8) (by omega)]

@[simp] theorem Size.trunc_peek (sz : Size) (s : State) (a : Long) : sz.trunc (s.peek a sz) = s.peek a sz := by
  apply BitVec.eq_of_getLsbD_eq
  intro i _
  rw [Size.trunc_getLsbD]
  by_cases h : i < sz.bits
  · simp [h]
  · simp [h, State.peek, joinBytes_getLsbD_of_le ((spanAddrs a sz.bytes).map s.byteAt) (i := i)
      (by simpa [Size.bits] using h)]

@[simp] theorem Size.trunc_access (sz : Size) (s : State) (k : AccessKind) (a : Long) :
    sz.trunc (s.access k a sz).1 = (s.access k a sz).1 := by
  unfold State.access
  split <;> simp

@[simp] theorem Size.trunc_locValue (sz : Size) (s : State) (l : Loc) :
    sz.trunc (s.locValue sz l).1 = (s.locValue sz l).1 := by
  cases l <;> simp [State.locValue]

@[simp] theorem Size.trunc_source (sz : Size) (s : State) (e : Ea) : sz.trunc (s.source sz e).1 = (s.source sz e).1 :=
  Size.trunc_locValue ..

/-! ### What reading an operand leaves alone -/

section
variable (s : State) (sz : Size) (e : Ea)

@[simp] theorem State.d_source (n : RegNo) : (s.source sz e).2.d n = s.d n := by simp [State.source]

@[simp] theorem State.ccr_source : (s.source sz e).2.ccr = s.ccr := by simp [State.source]

@[simp] theorem State.cfg_source : (s.source sz e).2.cfg = s.cfg := by simp [State.source]

end

/-- Which bytes are mapped depends on the parameters alone. -/
theorem State.locMapped_congr {s t : State} (h : t.cfg = s.cfg) (sz : Size) (l : Loc) :
    t.locMapped sz l = s.locMapped sz l := by
  cases l <;> simp [State.locMapped, State.mappedAt, h]

/-! ### Ending at the place that was read (20 R103) -/

section
variable {s : State} {sz : Size} {e : Ea}

/-- An instruction that has read a place writes it and commits. -/
theorem State.finish_source (hp : Ea.isPlace e = true) (h : s.reaches sz e = true) (v : Long) (f : Ccr) :
    (s.source sz e).2.finish (s.locate sz e) sz v f =
      .next (((s.source sz e).2.written sz v (s.locate sz e)).setCcr f).done :=
  State.finish_mapped v f ((State.locMapped_congr (State.cfg_source s sz e) sz _).trans h) (State.locate_ne_value hp)

/-- An instruction that writes a place without a read of it. -/
theorem State.finish_resolved (hp : Ea.isPlace e = true) (h : s.reaches sz e = true) (v : Long) (f : Ccr) :
    (s.autoUpdate sz e).finish (s.locate sz e) sz v f =
      .next (((s.autoUpdate sz e).written sz v (s.locate sz e)).setCcr f).done :=
  State.finish_mapped v f ((State.locMapped_autoUpdate s sz e _).trans h) (State.locate_ne_value hp)

end

/-! ### Flags of a result (10 R52) -/

theorem logicFlags_long (r : Long) (old : Ccr) : logicFlags .l r old = resultFlags old r := rfl

/-- The flags of a value of the size. -/
theorem logicFlags_of_trunc {sz : Size} {v : Long} (h : sz.trunc v = v) (old : Ccr) :
    logicFlags sz v old = { x := old.x, n := v.getLsbD (8 * sz.bytes - 1), z := v == 0, v := false, c := false } := by
  simp only [logicFlags, h]
  rfl

/-! ### Zero extension (00 R9) -/

theorem zext16_source (s : State) (e : Ea) : zext16 (s.source .w e).1 = (s.source .w e).1 := Size.trunc_source .w s e

theorem zext8_source (s : State) (e : Ea) : zext8 (s.source .b e).1 = (s.source .b e).1 := Size.trunc_source .b s e

end Sys2Proof.Machine
end

section
/-! PROOFS. Data movement (41_data_movement.md): MOVE, MOVEA, MVS, MVZ, MOVEQ, MOV3Q, CLR, LEA, PEA, LINK and UNLK complete
where their operands are mapped; JMP and JSR (45_program_control.md R364, R365) with them. -/

namespace Sys2Proof.Machine

/-! ### MOVE and its extending forms (41 R201, R202, R205, R206) -/

/-- A MOVE whose operands are mapped reads the source, then resolves and writes the destination. -/
theorem State.moveData_reaches {s : State} {sz : Size} {src dst : Ea} (hsrc : s.reaches sz src = true)
    (hplace : Ea.isPlace dst = true) (hdst : (s.source sz src).2.reaches sz dst = true) :
    s.moveData sz src dst = .next (((((s.source sz src).2.autoUpdate sz dst).written sz (s.source sz src).1
      ((s.source sz src).2.locate sz dst))).setCcr
        { x := s.ccr.x
          n := (s.source sz src).1.getLsbD (8 * sz.bytes - 1)
          z := (s.source sz src).1 == 0
          v := false
          c := false }).done := by
  unfold State.moveData
  rw [State.withSource_reaches _ hsrc]
  simp only [State.resolve, if_true]
  rw [State.finish_resolved hplace hdst, logicFlags_of_trunc (Size.trunc_source sz s src)]
  simp

/-- Settles O36: the three sizes are one routine. -/
theorem moveCopies : Obligations.MoveCopies := by
  intro m hm s src dst p hsrc hplace hdst
  have h := State.moveData_reaches hsrc hplace hdst
  simp only [List.mem_cons, List.not_mem_nil, or_false] at hm
  obtain rfl | rfl | rfl := hm <;> exact h

theorem State.moveAddress_reaches {s : State} {sz : Size} {src : Ea} (f : Long → Long) (x : RegNo)
    (h : s.reaches sz src = true) :
    s.moveAddress sz f src x = .next ((s.source sz src).2.setA x (f (s.source sz src).1)).done :=
  State.withSource_reaches _ h

theorem State.moveExtended_reaches {s : State} {sz : Size} {src : Ea} (f : Long → Long) (x : RegNo)
    (h : s.reaches sz src = true) :
    s.moveExtended sz f src x = .next (((s.source sz src).2.setD x (f (s.source sz src).1)).setCcr
      (resultFlags s.ccr (f (s.source sz src).1))).done := by
  unfold State.moveExtended
  rw [State.withSource_reaches _ h, State.ccr_source]
  rfl

/-- Settles O37: each row is the routine at its size and extension; a value read is its own zero extension. -/
theorem moveExtendsIntoRegister : Obligations.MoveExtendsIntoRegister := by
  refine fun s src x => ⟨fun h => ⟨?_, ?_, ?_⟩, fun h => ⟨?_, ?_⟩, fun h => ?_⟩
  · exact State.moveAddress_reaches sext16 x h
  · exact State.moveExtended_reaches sext16 x h
  · exact zext16_source s src ▸ State.moveExtended_reaches zext16 x h
  · exact State.moveExtended_reaches sext8 x h
  · exact zext8_source s src ▸ State.moveExtended_reaches zext8 x h
  · exact State.moveAddress_reaches id x h

/-! ### Quick values and CLR (41 R203, R204, R213) -/

theorem mov3qValue_eq (q : BitVec 3) : mov3qValue q = if q = 0 then -1 else BitVec.ofNat 32 q.toNat := by
  revert q
  decide

theorem Ea.isAn_iff (e : Ea) : Ea.isAn e = true ↔ ∃ n, e = .an n := by
  cases e <;> simp [Ea.isAn]

theorem State.clear_reaches {s : State} {sz : Size} {dst : Ea} (hplace : Ea.isPlace dst = true)
    (h : s.reaches sz dst = true) : s.clear sz dst = .next (((s.autoUpdate sz dst).written sz 0 (s.locate sz dst)).setCcr
      { x := s.ccr.x, n := false, z := true, v := false, c := false }).done := by
  unfold State.clear
  simp only [State.resolve, if_true]
  rw [State.finish_resolved hplace h, State.ccr_autoUpdate]

theorem execMov3q_reaches {s : State} {q : BitVec 3} {dst : Ea} (hplace : Ea.isPlace dst = true)
    (h : s.reaches .l dst = true) : execMov3q q dst s = .next
      (((s.autoUpdate .l dst).written .l (mov3qValue q) (s.locate .l dst)).setCcr
        (if Ea.isAn dst && !s.cfg.mov3qAnFlags then s.ccr else resultFlags s.ccr (mov3qValue q))).done := by
  unfold execMov3q
  simp only [State.resolve, if_true]
  rw [State.finish_resolved hplace h, State.ccr_autoUpdate, State.autoUpdate_cfg, logicFlags_long]

/-- Settles O38: MOV3Q to An without MOV3Q_AN_FLAGS writes back the flags it has, which changes nothing. -/
theorem moveQuickAndClear : Obligations.MoveQuickAndClear := by
  refine fun s d8 x q dst => ⟨rfl, fun hplace h => ?_, fun m hm hplace h => ?_⟩
  · rw [← mov3qValue_eq]
    refine (execMov3q_reaches hplace h).trans ?_
    by_cases hcond : (∃ n, dst = .an n) ∧ s.cfg.mov3qAnFlags = false
    · obtain ⟨⟨n, rfl⟩, hflags⟩ := hcond
      have hkept : (s.setA n (mov3qValue q)).setCcr s.ccr = s.setA n (mov3qValue q) := by
        rw [← State.ccr_setA s n (mov3qValue q), State.setCcr_ccr]
      simp [Ea.isAn, hflags, State.written, State.autoUpdate, hkept]
    · have hflags : (Ea.isAn dst && !s.cfg.mov3qAnFlags) = false := by
        rw [← Bool.not_eq_true, Bool.and_eq_true, Ea.isAn_iff, Bool.not_eq_true']
        exact hcond
      simp only [hcond, hflags]
      rfl
  · have h := State.clear_reaches hplace h
    simp only [List.mem_cons, List.not_mem_nil, or_false] at hm
    obtain rfl | rfl | rfl := hm <;> exact h

/-! ### Addresses of operands (41 R209, R210; 45 R364, R365) -/

/-- A control operand has an address and no side effect. -/
theorem State.control_mode {s : State} {ea : Ea} (h : ModeSet.has .control ea.mode = true) :
    s.locate .l ea = .mem (s.address .l ea) ∧ s.autoUpdate .l ea = s := by
  cases ea <;> simp_all [Ea.mode, ModeSet.has, State.address, State.autoUpdate]

/-- A call over a mapped stack slot pushes the address of the next instruction. -/
theorem State.callTo_mapped {s : State} (target : Long) (h : s.mappedAt (s.a 7 - 4) 4 = true) :
    s.callTo target = .next (((s.setA 7 (s.a 7 - 4)).deposit (s.a 7 - 4) .l s.cursor).atPc target) := by
  unfold State.callTo
  rw [State.push_mapped _ h]
  rfl

/-- Settles O41. -/
theorem addressInstructions : Obligations.AddressInstructions := by
  intro s ea x hmode a
  obtain ⟨hloc, hauto⟩ := State.control_mode (s := s) hmode
  have haddr (k : Long → State → Result) : s.withAddress .l ea k = k a s := by
    rw [State.withAddress_mem k hloc, hauto]
  refine ⟨hloc, haddr _, haddr _, fun h => ⟨(haddr _).trans ?_, (haddr _).trans (State.callTo_mapped _ h)⟩⟩
  rw [State.push_mapped a h]
  rfl

/-! ### LINK and UNLK (41 R211, R212) -/

theorem execLink_mapped {s : State} {y : RegNo} (d16 : Word) (hy : y ≠ 7) (h : s.mappedAt (s.a 7 - 4) 4 = true) :
    execLink y d16 s = .next (((((s.setA 7 (s.a 7 - 4)).deposit (s.a 7 - 4) .l (s.a y)).setA y (s.a 7 - 4)).setA 7
      (s.a 7 - 4 + d16.signExtend 32)).done) := by
  unfold execLink
  rw [if_neg hy, State.push_mapped _ h]
  simp [State.a_setA, State.commit_eq]

/-- An access does not read the address registers. -/
theorem State.access_setA (s : State) (n : RegNo) (v : Long) (k : AccessKind) (a : Long) (sz : Size) :
    (s.setA n v).access k a sz = ((s.access k a sz).1, (s.access k a sz).2.setA n v) := by
  have hio : (s.setA n v).ioAt a sz.bytes = s.ioAt a sz.bytes := by simp [State.ioAt]
  have hpeek : (s.setA n v).peek a sz = s.peek a sz := State.peek_congr (by simp) a sz
  unfold State.access
  rw [hio, hpeek]
  split
  · have husp : (s.draw.2.logIo k a sz (sz.trunc s.draw.1)).onUsp = s.onUsp := rfl
    simp only [State.setA, husp]
    split_ifs <;> rfl
  · rfl

/-- The last of two writes of one address register stays. -/
theorem State.setA_setA (s : State) (n : RegNo) (v w : Long) : (s.setA n v).setA n w = s.setA n w := by
  rw [State.setA, State.onUsp_setA]
  unfold State.setA
  split_ifs <;> simp

theorem execUnlk_mapped {s : State} {y : RegNo} (hy : y ≠ 7) (h : s.mappedAt (s.a y) 4 = true) :
    execUnlk y s = .next (((s.access .read (s.a y) .l).2.setA 7 (s.a y + 4)).setA y (s.access .read (s.a y) .l).1).done := by
  unfold execUnlk
  rw [if_neg hy, State.pull_mapped (by simpa [State.mappedAt] using h)]
  simp [State.commit_eq, State.access_setA, State.setA_setA]

/-- Settles O42. -/
theorem linkAndUnlink : Obligations.LinkAndUnlink :=
  fun _ _ d16 => ⟨fun hy h => execLink_mapped d16 hy h, fun hy h => execUnlk_mapped hy h, rfl, rfl⟩

end Sys2Proof.Machine
end

section
/-! PROOFS. Add and subtract flags over the integers (10_state.md R47 to R49): the carry is that of the unsigned, the
overflow that of the signed result, at every size. -/

namespace Sys2Proof.Machine

/-! ### Values of a size -/

theorem Size.trunc_toNat (sz : Size) (v : Long) : (sz.trunc v).toNat = v.toNat % 2 ^ sz.bits := by
  cases sz with
  | b | w => simp [Size.trunc, zext8, zext16, Size.bits, Size.bytes]; omega
  | l => exact (Nat.mod_eq_of_lt v.isLt).symm

/-- A truncated value is below 2 to its size. -/
theorem Size.trunc_toNat_lt (sz : Size) (v : Long) : (sz.trunc v).toNat < 2 ^ sz.bits := by
  rw [Size.trunc_toNat]
  exact Nat.mod_lt _ (Nat.two_pow_pos _)

/-- The sign of a value of the size is its upper half. -/
theorem Size.msb_eq_decide {sz : Size} {v : Long} (h : v.toNat < 2 ^ sz.bits) :
    sz.msb v = decide (2 ^ (sz.bits - 1) ≤ v.toNat) := by
  rw [Size.msb, BitVec.getLsbD, Nat.testBit_eq_decide_div_mod_eq, decide_eq_decide]
  all_goals cases sz <;> simp only [Size.bits, Size.bytes, Nat.reduceMul, Nat.reduceSub, Nat.reducePow] at h ⊢ <;> omega

theorem Size.msb_and (sz : Size) (a b : Long) : sz.msb (a &&& b) = (sz.msb a && sz.msb b) := BitVec.getLsbD_and

theorem Size.msb_or (sz : Size) (a b : Long) : sz.msb (a ||| b) = (sz.msb a || sz.msb b) := BitVec.getLsbD_or

theorem Size.msb_xor (sz : Size) (a b : Long) : sz.msb (a ^^^ b) = (sz.msb a != sz.msb b) := BitVec.getLsbD_xor

theorem Size.msb_not (sz : Size) (a : Long) : sz.msb (~~~a) = !sz.msb a := by
  cases sz <;> simp [Size.msb, Size.bits, Size.bytes]

/-- A value of the size as a signed number. -/
def signedAt (sz : Size) (v : Long) : Int := if 2 * v.toNat < 2 ^ sz.bits then v.toNat else v.toNat - 2 ^ sz.bits

theorem signedAt_long (v : Long) : signedAt .l v = v.toInt := (BitVec.toInt_eq_toNat_cond v).symm

/-! ### The flags over the integers -/

section
variable {sz : Size} {a b d s r : Long}

/-- The flags of a sum with a carry in: the carry out of the unsigned and the overflow of the signed sum (10 R47). -/
theorem addFlags_exact {cin : Nat} (ha : a.toNat < 2 ^ sz.bits) (hb : b.toNat < 2 ^ sz.bits) (hcin : cin ≤ 1)
    (hr : r.toNat = (a.toNat + b.toNat + cin) % 2 ^ sz.bits) (chained : Bool) (old : Ccr) :
    (addFlags sz a b r chained old).c = decide (2 ^ sz.bits ≤ a.toNat + b.toNat + cin) ∧
      (addFlags sz a b r chained old).v = decide (signedAt sz a + signedAt sz b + cin < -2 ^ (sz.bits - 1) ∨
        2 ^ (sz.bits - 1) ≤ signedAt sz a + signedAt sz b + cin) := by
  have hrlt : r.toNat < 2 ^ sz.bits := hr ▸ Nat.mod_lt _ (Nat.two_pow_pos _)
  constructor <;> rw [Bool.eq_iff_iff] <;>
    simp only [addFlags, Size.msb_and, Size.msb_or, Size.msb_xor, Size.msb_not, Size.msb_eq_decide ha,
      Size.msb_eq_decide hb, Size.msb_eq_decide hrlt, Bool.or_eq_true, Bool.and_eq_true, decide_eq_true_eq,
      Bool.not_eq_true', decide_eq_false_iff_not, bne_iff_ne, ne_eq, decide_eq_decide]
  all_goals
    cases sz <;> simp only [signedAt, Size.bits, Size.bytes, Nat.reduceMul, Nat.reduceSub, Nat.reducePow, Int.reducePow,
      Int.reduceNeg] at ha hb hr hrlt ⊢ <;> omega

/-- The flags of a difference with a borrow in: the borrow of the unsigned and the overflow of the signed difference
(10 R48). -/
theorem subFlags_exact {bin : Nat} (hd : d.toNat < 2 ^ sz.bits) (hs : s.toNat < 2 ^ sz.bits) (hbin : bin ≤ 1)
    (hr : r.toNat = (d.toNat + 2 ^ sz.bits + 2 ^ sz.bits - s.toNat - bin) % 2 ^ sz.bits) (chained : Bool) (old : Ccr) :
    (subFlags sz d s r chained old).c = decide (d.toNat < s.toNat + bin) ∧
      (subFlags sz d s r chained old).v = decide (signedAt sz d - signedAt sz s - bin < -2 ^ (sz.bits - 1) ∨
        2 ^ (sz.bits - 1) ≤ signedAt sz d - signedAt sz s - bin) := by
  have hrlt : r.toNat < 2 ^ sz.bits := hr ▸ Nat.mod_lt _ (Nat.two_pow_pos _)
  constructor <;> rw [Bool.eq_iff_iff] <;>
    simp only [subFlags, Size.msb_and, Size.msb_or, Size.msb_xor, Size.msb_not, Size.msb_eq_decide hd,
      Size.msb_eq_decide hs, Size.msb_eq_decide hrlt, Bool.or_eq_true, Bool.and_eq_true, decide_eq_true_eq,
      Bool.not_eq_true', decide_eq_false_iff_not, bne_iff_ne, ne_eq, decide_eq_decide]
  all_goals
    cases sz <;> simp only [signedAt, Size.bits, Size.bytes, Nat.reduceMul, Nat.reduceSub, Nat.reducePow, Int.reducePow,
      Int.reduceNeg] at hd hs hr hrlt ⊢ <;> omega

end

theorem Ccr.ext_of {f g : Ccr} (hx : f.x = g.x) (hn : f.n = g.n) (hz : f.z = g.z) (hv : f.v = g.v) (hc : f.c = g.c) :
    f = g := by
  cases f
  cases g
  simp_all

/-- The long add flags are those of the exact sum. -/
theorem addFlags_long (a b : Long) {cin : Nat} (hcin : cin ≤ 1) (chained : Bool) (old : Ccr) :
    addFlags .l a b (a + b + BitVec.ofNat 32 cin) chained old = exactAddFlags old chained a b cin := by
  have hr : a + b + BitVec.ofNat 32 cin = BitVec.ofNat 32 (a.toNat + b.toNat + cin) := by
    apply BitVec.eq_of_toNat_eq
    simp
  obtain ⟨hc, hv⟩ := addFlags_exact (sz := .l) (r := a + b + BitVec.ofNat 32 cin) a.isLt b.isLt hcin
    (by rw [hr, BitVec.toNat_ofNat]; rfl) chained old
  rw [signedAt_long, signedAt_long] at hv
  rw [exactAddFlags, ← hr]
  exact Ccr.ext_of (hc.trans rfl) rfl rfl (hv.trans rfl) (hc.trans rfl)

/-- The long subtract flags are those of the exact difference. -/
theorem subFlags_long (d s : Long) {bin : Nat} (hbin : bin ≤ 1) (chained : Bool) (old : Ccr) :
    subFlags .l d s (d - s - BitVec.ofNat 32 bin) chained old = exactSubFlags old chained d s bin := by
  have hr : (d - s - BitVec.ofNat 32 bin).toNat =
      (d.toNat + 2 ^ Size.l.bits + 2 ^ Size.l.bits - s.toNat - bin) % 2 ^ Size.l.bits := by
    simp only [Size.bits, Size.bytes]
    bv_omega
  obtain ⟨hc, hv⟩ := subFlags_exact (sz := .l) d.isLt s.isLt hbin hr chained old
  rw [signedAt_long, signedAt_long] at hv
  exact Ccr.ext_of hc rfl rfl hv hc

/-! ### The order that a compare decides (10 R49, R54) -/

/-- The result of a compare at a size. -/
theorem trunc_sub_toNat (sz : Size) (d s : Long) : (sz.trunc (sz.trunc d - sz.trunc s)).toNat =
    ((sz.trunc d).toNat + 2 ^ sz.bits - (sz.trunc s).toNat) % 2 ^ sz.bits := by
  have hd := Size.trunc_toNat_lt sz d
  have hs := Size.trunc_toNat_lt sz s
  rw [Size.trunc_toNat, BitVec.toNat_sub]
  cases sz <;> simp only [Size.bits, Size.bytes, Nat.reduceMul, Nat.reducePow] at hd hs ⊢ <;> omega

/-- The flags of a compare: C is the unsigned order, Z equality, and N against V the signed order. -/
theorem cmpFlags_order (sz : Size) (d s : Long) (old : Ccr) :
    let f := cmpFlags sz (sz.trunc d) (sz.trunc s) (sz.trunc (sz.trunc d - sz.trunc s)) old
    f.c = decide ((sz.trunc d).toNat < (sz.trunc s).toNat) ∧ f.z = decide ((sz.trunc d).toNat = (sz.trunc s).toNat) ∧
      (f.n == f.v) = decide (signedAt sz (sz.trunc s) ≤ signedAt sz (sz.trunc d)) := by
  intro f
  have hd := Size.trunc_toNat_lt sz d
  have hs := Size.trunc_toNat_lt sz s
  have hr := trunc_sub_toNat sz d s
  have hrlt := Size.trunc_toNat_lt sz (sz.trunc d - sz.trunc s)
  obtain ⟨hc, hv⟩ := subFlags_exact (bin := 0) hd hs (by omega) (by
    rw [hr]
    cases sz <;> simp only [Size.bits, Size.bytes, Nat.reduceMul, Nat.reducePow] at hd hs ⊢ <;> omega) false old
  have hn : f.n = _ := Size.msb_eq_decide hrlt
  refine ⟨hc, ?_, ?_⟩
  · have hz : f.z = (sz.trunc (sz.trunc (sz.trunc d - sz.trunc s)) == 0) := Bool.true_and _
    rw [hz, Size.trunc_trunc, Bool.eq_iff_iff, beq_iff_eq, decide_eq_true_iff, ← BitVec.toNat_inj, hr]
    generalize (sz.trunc d).toNat = du at hd ⊢
    generalize (sz.trunc s).toNat = su at hs ⊢
    cases sz <;> simp [Size.bits, Size.bytes] at hd hs ⊢ <;> omega
  · have hv : f.v = _ := hv
    rw [hn, hv, hr, Bool.eq_iff_iff, beq_iff_eq, decide_eq_true_iff, decide_eq_decide]
    unfold signedAt
    generalize (sz.trunc d).toNat = du at hd ⊢
    generalize (sz.trunc s).toNat = su at hs ⊢
    cases sz <;> simp only [Size.bits, Size.bytes, Nat.reduceMul, Nat.reduceSub, Nat.reducePow, Int.reducePow,
      Int.reduceNeg] at hd hs ⊢ <;> omega

/-- Settles O8: each condition is a combination of the unsigned order, equality and the signed order. -/
theorem comparedOperandsOrder : Obligations.ComparedOperandsOrder := by
  intro sz d s old du su di si f
  have hd := Size.trunc_toNat_lt sz d
  have hs := Size.trunc_toNat_lt sz s
  obtain ⟨hc, hz, hnv⟩ := cmpFlags_order sz d s old
  have hc : f.c = decide (du < su) := hc
  have hz : f.z = decide (du = su) := hz
  have hnv : (f.n == f.v) = decide (si ≤ di) := hnv
  have hsigned : di = si ↔ du = su := by
    have hd : du < 2 ^ sz.bits := hd
    have hs : su < 2 ^ sz.bits := hs
    simp only [di, si]
    clear_value du su
    clear hnv hz hc di si
    cases sz <;> simp only [Size.bits, Size.bytes, Nat.reduceMul, Nat.reducePow, Int.reducePow] at hd hs ⊢ <;> omega
  clear_value di si du su
  refine ⟨?_, ?_, ?_, ?_, ?_, ?_, ?_, ?_, ?_, ?_⟩ <;> rw [Bool.eq_iff_iff] <;>
    simp only [Ccr.holds, bne, hc, hz, hnv, Bool.and_eq_true, Bool.or_eq_true, Bool.not_eq_true',
      decide_eq_false_iff_not, decide_eq_true_eq] <;> omega

end Sys2Proof.Machine
end

section
/-! PROOFS. Integer arithmetic and logic (42_integer_arith.md; 44_logic_shift_bit.md section 1): each row completes with the
result and the flags of its rule where its operand is mapped. -/

namespace Sys2Proof.Machine

/-! ### Flags without a carry in (10 R47 to R49) -/

theorem addFlags_sum (a b : Long) (old : Ccr) : addFlags .l a b (a + b) false old = exactAddFlags old false a b 0 := by
  simpa using addFlags_long a b (Nat.zero_le 1) false old

theorem subFlags_difference (d s : Long) (old : Ccr) :
    subFlags .l d s (d - s) false old = exactSubFlags old false d s 0 := by
  simpa using subFlags_long d s (Nat.zero_le 1) false old

theorem cmpFlags_difference (d s : Long) (old : Ccr) :
    cmpFlags .l d s (d - s) old = { exactSubFlags old false d s 0 with x := old.x } := by
  rw [cmpFlags, subFlags_difference]

/-! ### X as a carry in (10 R51) -/

/-- X as a number. -/
def State.xNat (s : State) : Nat := if s.ccr.x then 1 else 0

theorem State.xNat_le (s : State) : s.xNat ≤ 1 := by
  unfold State.xNat
  split <;> omega

theorem State.xBit_eq (s : State) : s.xBit = BitVec.ofNat 32 s.xNat := by
  unfold State.xBit State.xNat
  split <;> rfl

/-! ### Into a register (42 R250, R252, R253, R255, R256, R258, R259, R261, R265, R266) -/

section
variable {s : State} {src : Ea} (x : RegNo)

theorem execAddEaDn_reaches (h : s.reaches .l src = true) : execAddEaDn src x s = .next
    (((s.source .l src).2.setD x (s.d x + (s.source .l src).1)).setCcr
      (exactAddFlags s.ccr false (s.d x) (s.source .l src).1 0)).done := by
  unfold execAddEaDn
  rw [State.withSource_reaches _ h]
  simp only [State.d_source, State.ccr_source, addFlags_sum, State.finishD_eq]

theorem execSubEaDn_reaches (h : s.reaches .l src = true) : execSubEaDn src x s = .next
    (((s.source .l src).2.setD x (s.d x - (s.source .l src).1)).setCcr
      (exactSubFlags s.ccr false (s.d x) (s.source .l src).1 0)).done := by
  unfold execSubEaDn
  rw [State.withSource_reaches _ h]
  simp only [State.d_source, State.ccr_source, subFlags_difference, State.finishD_eq]

end

theorem execAddx_eq (s : State) (y x : RegNo) : execAddx y x s = .next
    ((s.setD x (s.d x + s.d y + BitVec.ofNat 32 s.xNat)).setCcr
      (exactAddFlags s.ccr true (s.d x) (s.d y) s.xNat)).done := by
  rw [← addFlags_long (s.d x) (s.d y) s.xNat_le, ← State.xBit_eq]
  rfl

theorem execSubx_eq (s : State) (y x : RegNo) : execSubx y x s = .next
    ((s.setD x (s.d x - s.d y - BitVec.ofNat 32 s.xNat)).setCcr
      (exactSubFlags s.ccr true (s.d x) (s.d y) s.xNat)).done := by
  rw [← subFlags_long (s.d x) (s.d y) s.xNat_le, ← State.xBit_eq]
  rfl

theorem execNegx_eq (s : State) (x : RegNo) : execNegx x s = .next
    ((s.setD x (-s.d x - BitVec.ofNat 32 s.xNat)).setCcr (exactSubFlags s.ccr true 0 (s.d x) s.xNat)).done := by
  rw [← subFlags_long 0 (s.d x) s.xNat_le, ← State.xBit_eq, ← BitVec.zero_sub]
  rfl

theorem execNeg_eq (s : State) (x : RegNo) :
    execNeg x s = .next ((s.setD x (-s.d x)).setCcr (exactSubFlags s.ccr false 0 (s.d x) 0)).done := by
  rw [← subFlags_difference, ← BitVec.zero_sub]
  rfl

/-- Settles O43: the flags are those of the exact results, by `addFlags_long` and `subFlags_long`. -/
theorem addSubtractIntoRegister : Obligations.AddSubtractIntoRegister := by
  refine fun s src imm y x => ⟨fun h => ⟨execAddEaDn_reaches x h, execSubEaDn_reaches x h, State.withSource_reaches _ h,
    State.withSource_reaches _ h⟩, ?_, ?_, execAddx_eq s y x, execSubx_eq s y x, execNeg_eq s x, execNegx_eq s x⟩
  · rw [← addFlags_sum]
    rfl
  · rw [← subFlags_difference]
    rfl

/-! ### Into a place (42 R251, R254, R257, R260) -/

theorem quickValue_eq (q : BitVec 3) : BitVec.ofNat 32 (quickValue q) = if q = 0 then 8 else BitVec.ofNat 32 q.toNat := by
  revert q
  decide

/-- An add into a place that is read and written. -/
theorem State.addToPlace {s : State} {dst : Ea} (hplace : Ea.isPlace dst = true) (h : s.reaches .l dst = true) (v : Long) :
    (s.source .l dst).2.finish (s.locate .l dst) .l ((s.source .l dst).1 + v)
      (addFlags .l (s.source .l dst).1 v ((s.source .l dst).1 + v) false (s.source .l dst).2.ccr) =
    .next (((s.source .l dst).2.written .l ((s.source .l dst).1 + v) (s.locate .l dst)).setCcr
      (exactAddFlags s.ccr false (s.source .l dst).1 v 0)).done := by
  rw [State.finish_source hplace h, addFlags_sum, State.ccr_source]

/-- A subtract from a place that is read and written. -/
theorem State.subFromPlace {s : State} {dst : Ea} (hplace : Ea.isPlace dst = true) (h : s.reaches .l dst = true) (v : Long) :
    (s.source .l dst).2.finish (s.locate .l dst) .l ((s.source .l dst).1 - v)
      (subFlags .l (s.source .l dst).1 v ((s.source .l dst).1 - v) false (s.source .l dst).2.ccr) =
    .next (((s.source .l dst).2.written .l ((s.source .l dst).1 - v) (s.locate .l dst)).setCcr
      (exactSubFlags s.ccr false (s.source .l dst).1 v 0)).done := by
  rw [State.finish_source hplace h, subFlags_difference, State.ccr_source]

theorem execAddDnEa_reaches {s : State} {dst : Ea} (y : RegNo) (hplace : Ea.isPlace dst = true)
    (h : s.reaches .l dst = true) : execAddDnEa y dst s = .next
      (((s.source .l dst).2.written .l ((s.source .l dst).1 + s.d y) (s.locate .l dst)).setCcr
        (exactAddFlags s.ccr false (s.source .l dst).1 (s.d y) 0)).done := by
  unfold execAddDnEa
  rw [State.withTarget_reaches _ h, ← State.addToPlace hplace h, State.d_source]

theorem execSubDnEa_reaches {s : State} {dst : Ea} (y : RegNo) (hplace : Ea.isPlace dst = true)
    (h : s.reaches .l dst = true) : execSubDnEa y dst s = .next
      (((s.source .l dst).2.written .l ((s.source .l dst).1 - s.d y) (s.locate .l dst)).setCcr
        (exactSubFlags s.ccr false (s.source .l dst).1 (s.d y) 0)).done := by
  unfold execSubDnEa
  rw [State.withTarget_reaches _ h, ← State.subFromPlace hplace h, State.d_source]

/-- Settles O44: the place is read and written by `State.addToPlace` and `State.subFromPlace`. -/
theorem addSubtractIntoPlace : Obligations.AddSubtractIntoPlace := by
  intro s dst y n q v p put
  have hv : BitVec.ofNat 32 (quickValue q) = v := quickValue_eq q
  refine ⟨fun hplace h => ⟨?_, ?_, fun hdst => ⟨?_, ?_⟩⟩, ?_, ?_⟩
  · exact execAddDnEa_reaches y hplace h
  · exact execSubDnEa_reaches y hplace h
  · rw [exec_addq_place s q hdst, State.withTarget_reaches _ h, hv]
    exact State.addToPlace hplace h v
  · rw [exec_subq_place s q hdst, State.withTarget_reaches _ h, hv]
    exact State.subFromPlace hplace h v
  · rw [← hv]
    rfl
  · rw [← hv]
    rfl

/-! ### Compare and test (42 R262 to R264, R270) -/

section
variable {s : State} {sz : Size} {src : Ea}

theorem State.compareD_reaches (x : RegNo) (h : s.reaches sz src = true) : s.compareD sz src x = .next
    ((s.source sz src).2.setCcr (cmpFlags sz (sz.trunc (s.d x)) (s.source sz src).1
      (sz.trunc (sz.trunc (s.d x) - (s.source sz src).1)) s.ccr)).done := by
  unfold State.compareD
  rw [State.withSource_reaches _ h]
  simp only [State.d_source, State.ccr_source, State.commit_eq]

theorem State.test_reaches (h : s.reaches sz src = true) : s.test sz src = .next ((s.source sz src).2.setCcr
    { x := s.ccr.x
      n := (s.source sz src).1.getLsbD (8 * sz.bytes - 1)
      z := (s.source sz src).1 == 0
      v := false
      c := false }).done := by
  unfold State.test
  rw [State.withSource_reaches _ h, logicFlags_of_trunc (Size.trunc_source sz s src), State.ccr_source, State.commit_eq]

theorem State.compareA_reaches (f : Long → Long) (x : RegNo) (h : s.reaches sz src = true) :
    s.compareA sz f src x = .next ((s.source sz src).2.setCcr
      { exactSubFlags s.ccr false ((s.source sz src).2.a x) (f (s.source sz src).1) 0 with x := s.ccr.x }).done := by
  unfold State.compareA
  rw [State.withSource_reaches _ h, cmpFlags_difference, State.ccr_source, State.commit_eq]

end

/-- Truncation takes differences of truncated operands to differences. -/
theorem Size.trunc_sub_trunc (sz : Size) (d v : Long) : sz.trunc (sz.trunc d - v) = sz.trunc (d - v) := by
  apply BitVec.eq_of_toNat_eq
  rw [Size.trunc_toNat, Size.trunc_toNat, BitVec.toNat_sub, BitVec.toNat_sub, Size.trunc_toNat]
  cases sz <;> simp only [Size.bits, Size.bytes, Nat.reduceMul, Nat.reducePow] <;> omega

theorem State.compareImm_eq (s : State) (sz : Size) (v : Long) (x : RegNo) : s.compareImm sz v x = .next
    (s.setCcr (cmpFlags sz (sz.trunc (s.d x)) v (sz.trunc (s.d x - v)) s.ccr)).done := by
  rw [← Size.trunc_sub_trunc]
  rfl

/-- Settles O45: each row is its routine at its size; at long size the flags are those of the exact difference. -/
theorem compareAndTest : Obligations.CompareAndTest := by
  refine fun s src x => ⟨fun m hm h => ?_, State.compareA_reaches sext16 x, State.compareA_reaches id x,
    fun b => State.compareImm_eq s .b _ x, fun w => State.compareImm_eq s .w _ x, fun l => ?_⟩
  · have hcmp := State.compareD_reaches x h
    have htst := State.test_reaches h
    simp only [List.mem_cons, List.not_mem_nil, or_false] at hm
    obtain rfl | rfl | rfl := hm <;> exact ⟨hcmp, htst⟩
  · rw [← cmpFlags_difference]
    exact State.compareImm_eq s .l l x

/-! ### Rearrangements of a register (41 R214; 42 R267 to R269, R271; 44 R328) -/

/-- The value of EXT.W is the sign-extended byte as a word. -/
theorem zext16_sext8 (v : Long) : zext16 (sext8 v) = ((v.setWidth 8).signExtend 16).setWidth 32 := by
  apply BitVec.eq_of_getLsbD_eq
  intro i hi
  by_cases h16 : i < 16
  · simp [zext16, sext8, hi, h16, BitVec.getElem_signExtend]
  · simp [zext16, sext8, BitVec.getLsbD_of_ge _ i (Nat.not_lt.mp h16)]

/-- Writing a word into a register keeps its high word (10 R33). -/
theorem State.writeD_word (s : State) (x : RegNo) (w : Word) :
    s.writeD x .w (w.setWidth 32) = s.setD x (((s.d x).extractLsb' 16 16 : Word) ++ w) := by
  have h : (w.setWidth 32 : Long).extractLsb' 0 16 = w := by
    apply BitVec.eq_of_getLsbD_eq
    intro i hi
    have hi' : i < 32 := by omega
    simp [hi, hi']
  rw [State.writeD, Size.insert, h]

/-- The flags of a word. -/
theorem logicFlags_word (w : Word) (old : Ccr) : logicFlags .w (w.setWidth 32) old =
    { x := old.x, n := w.msb, z := w == 0, v := false, c := false } := by
  have hz : (w.setWidth 32 : Long) = 0 ↔ w = 0 := by
    rw [← BitVec.toNat_inj, ← BitVec.toNat_inj]
    have hlt := w.isLt
    simp
    omega
  have htrunc : Size.w.trunc (w.setWidth 32) = w.setWidth 32 := by simp [Size.trunc, zext16]
  rw [logicFlags_of_trunc htrunc]
  refine Ccr.ext_of rfl ?_ ?_ rfl rfl
  · simp [Size.bytes, BitVec.msb_eq_getLsbD_last]
  · rw [Bool.eq_iff_iff, beq_iff_eq, beq_iff_eq, hz]

theorem execExtW_eq (s : State) (x : RegNo) : execExtW x s = .next
    ((s.setD x (((s.d x).extractLsb' 16 16 : Word) ++ (((s.d x).setWidth 8).signExtend 16 : Word))).setCcr
      { x := s.ccr.x
        n := (((s.d x).setWidth 8).signExtend 16 : Word).msb
        z := (((s.d x).setWidth 8).signExtend 16 : Word) == 0
        v := false
        c := false }).done := by
  simp only [execExtW]
  rw [zext16_sext8, State.writeD_word, logicFlags_word, State.commit_eq]

/-- Settles O46. -/
theorem registerRearrangements : Obligations.RegisterRearrangements :=
  fun s x => ⟨rfl, execExtW_eq s x, rfl, rfl, rfl, rfl⟩

/-! ### Logic (44 R320 to R327) -/

section
variable {s : State} (f : Long → Long → Long)

theorem State.logicToD_reaches {src : Ea} (x : RegNo) (h : s.reaches .l src = true) : s.logicToD f src x = .next
    (((s.source .l src).2.setD x (f (s.d x) (s.source .l src).1)).setCcr
      (resultFlags s.ccr (f (s.d x) (s.source .l src).1))).done := by
  unfold State.logicToD
  rw [State.withSource_reaches _ h]
  simp only [State.d_source, State.ccr_source, logicFlags_long, State.finishD_eq]

theorem State.logicToEa_reaches {dst : Ea} (y : RegNo) (hplace : Ea.isPlace dst = true) (h : s.reaches .l dst = true) :
    s.logicToEa f y dst = .next (((s.source .l dst).2.written .l (f (s.source .l dst).1 (s.d y)) (s.locate .l dst)).setCcr
      (resultFlags s.ccr (f (s.source .l dst).1 (s.d y)))).done := by
  unfold State.logicToEa
  rw [State.withTarget_reaches _ h]
  simp only [State.d_source, State.ccr_source, logicFlags_long]
  exact State.finish_source hplace h _ _

end

/-- Settles O47: each row is its routine with its operation. -/
theorem logicResults : Obligations.LogicResults := by
  refine fun s src dst imm y x => ⟨fun h => ⟨?_, ?_⟩, fun hplace h => ⟨?_, ?_, ?_⟩, rfl, rfl, rfl⟩
  · exact State.logicToD_reaches (· &&& ·) x h
  · exact State.logicToD_reaches (· ||| ·) x h
  · exact State.logicToEa_reaches (· &&& ·) y hplace h
  · exact State.logicToEa_reaches (· ||| ·) y hplace h
  · exact State.logicToEa_reaches (· ^^^ ·) y hplace h

end Sys2Proof.Machine
end

section
/-! PROOFS. Products, quotients and remainders (43_mul_div.md R302 to R311) over the integers. -/

namespace Sys2Proof.Machine

/-! ### Products (43 R302 to R305) -/

theorem mul_eq_ofNat (a b : Long) : a * b = BitVec.ofNat 32 (a.toNat * b.toNat) := by
  apply BitVec.eq_of_toNat_eq
  simp

theorem mul_eq_ofInt (a b : Long) : a * b = BitVec.ofInt 32 (a.toInt * b.toInt) := by
  simp [BitVec.ofInt_mul]

/-- The product of two zero-extended words. -/
theorem zext16_mul (a b : Long) : zext16 a * zext16 b = BitVec.ofNat 32 ((a.setWidth 16).toNat * (zext16 b).toNat) := by
  have ha : (zext16 a).toNat = (a.setWidth 16).toNat :=
    BitVec.toNat_setWidth_of_le (by decide)
  rw [mul_eq_ofNat, ha]

/-- The product of two sign-extended words. -/
theorem sext16_mul (a b : Long) : sext16 a * sext16 b =
    BitVec.ofInt 32 ((a.setWidth 16).toInt * (b.setWidth 16).toInt) := by
  rw [BitVec.ofInt_mul]
  rfl

section
variable {s : State} {sz : Size} {src : Ea} (x : RegNo)

theorem State.multiply_reaches (f : Long → Long) (h : s.reaches sz src = true) : s.multiply sz f src x = .next
    (((s.source sz src).2.setD x (f (s.d x) * f (s.source sz src).1)).setCcr
      (resultFlags s.ccr (f (s.d x) * f (s.source sz src).1))).done := by
  unfold State.multiply
  rw [State.withSource_reaches _ h]
  simp only [State.d_source, State.finishProduct, State.ccr_source, State.finishD_eq]
  rfl

end

theorem execMulsL_reaches {s : State} {src : Ea} (x : RegNo) (h : s.reaches .l src = true) : execMulsL src x s = .next
    (((s.source .l src).2.setD x (BitVec.ofInt 32 ((s.d x).toInt * (s.source .l src).1.toInt))).setCcr
      (resultFlags s.ccr (BitVec.ofInt 32 ((s.d x).toInt * (s.source .l src).1.toInt)))).done := by
  unfold execMulsL
  rw [State.withSource_reaches _ h]
  simp only [State.d_source, State.finishProduct, State.ccr_source, State.finishD_eq]
  rfl

/-- Settles O48: the product of long words is that of the integers modulo 2^32, signed or not. -/
theorem products : Obligations.Products := by
  refine fun s src x => ⟨fun h => ⟨?_, ?_⟩, fun h => ⟨?_, execMulsL_reaches x h, ?_⟩⟩
  · have hu := State.multiply_reaches x zext16 h
    rwa [zext16_mul, zext16_source] at hu
  · have hi := State.multiply_reaches x sext16 h
    rwa [sext16_mul] at hi
  · have hu := State.multiply_reaches x id h
    rwa [id, id, mul_eq_ofNat] at hu
  · rw [← mul_eq_ofNat, ← mul_eq_ofInt]

/-! ### Drawn flags (43 section 3) -/

theorem State.drawNZ_eq (s : State) (v c : Bool) : ∃ n z, s.drawNZ v c =
    State.setCcr { s with drawCount := s.drawCount + 2 } { x := s.ccr.x, n := n, z := z, v := v, c := c } :=
  ⟨_, _, rfl⟩

theorem State.withDivisor_ne_zero {s : State} {sz : Size} {src : Ea} (k : Long → State → Result)
    (h : s.reaches sz src = true) (hv : (s.source sz src).1 ≠ 0) :
    s.withDivisor sz src k = k (s.source sz src).1 (s.source sz src).2 := by
  unfold State.withDivisor
  rw [State.withSource_reaches _ h, if_neg hv]

/-! ### Quotients (43 R306 to R309) -/

/-- A quotient that does not fit draws N and Z, sets V and keeps the register. -/
theorem State.divideOverflow_source (s : State) (sz : Size) (src : Ea) :
    ∃ n z, (s.source sz src).2.divideOverflow =
      .next (State.setCcr { (s.source sz src).2 with drawCount := (s.source sz src).2.drawCount + 2 }
        { x := s.ccr.x, n := n, z := z, v := true, c := false }).done := by
  obtain ⟨n, z, h⟩ := (s.source sz src).2.drawNZ_eq true false
  exact ⟨n, z, by rw [State.divideOverflow, h, State.ccr_source]; rfl⟩

theorem State.finishQuotientW_source (s : State) (sz : Size) (src : Ea) (x : RegNo) (rm q : Word) :
    (s.source sz src).2.finishQuotientW x rm q = .next (((s.source sz src).2.setD x (rm ++ q)).setCcr
      { x := s.ccr.x, n := q.msb, z := q == 0, v := false, c := false }).done := by
  rw [State.finishQuotientW, State.ccr_source, BitVec.msb_eq_getLsbD_last, State.finishD_eq]

theorem State.finishQuotientL_source (s : State) (sz : Size) (src : Ea) (x : RegNo) (q : Long) :
    (s.source sz src).2.finishQuotientL x q =
      .next (((s.source sz src).2.setD x q).setCcr (resultFlags s.ccr q)).done := by
  rw [State.finishQuotientL, State.ccr_source, State.finishD_eq]
  rfl

theorem sext16_toInt (v : Long) : (sext16 v).toInt = (v.setWidth 16).toInt :=
  BitVec.toInt_signExtend_of_le (by decide)

section
variable {s : State} {src : Ea} (x : RegNo)

theorem execDivuW_ne_zero (h : s.reaches .w src = true) (hv : (s.source .w src).1 ≠ 0) : execDivuW src x s =
    if 0xFFFF < (s.d x).toNat / (s.source .w src).1.toNat then (s.source .w src).2.divideOverflow
    else (s.source .w src).2.finishQuotientW x (BitVec.ofNat 16 ((s.d x).toNat % (s.source .w src).1.toNat))
      (BitVec.ofNat 16 ((s.d x).toNat / (s.source .w src).1.toNat)) := by
  unfold execDivuW
  rw [State.withDivisor_ne_zero _ h hv]
  simp only [State.d_source]

theorem execDivsW_ne_zero (h : s.reaches .w src = true) (hv : (s.source .w src).1 ≠ 0) : execDivsW src x s =
    let v := ((s.source .w src).1.setWidth 16).toInt
    let q := (s.d x).toInt.tdiv v
    if q < -32768 ∨ 32767 < q then (s.source .w src).2.divideOverflow
    else (s.source .w src).2.finishQuotientW x (BitVec.ofInt 16 ((s.d x).toInt - q * v)) (BitVec.ofInt 16 q) := by
  unfold execDivsW
  rw [State.withDivisor_ne_zero _ h hv]
  simp only [State.d_source, sext16_toInt]

theorem execDivuL_ne_zero (h : s.reaches .l src = true) (hv : (s.source .l src).1 ≠ 0) : execDivuL src x s =
    (s.source .l src).2.finishQuotientL x (BitVec.ofNat 32 ((s.d x).toNat / (s.source .l src).1.toNat)) := by
  unfold execDivuL
  rw [State.withDivisor_ne_zero _ h hv, State.d_source]

theorem execDivsL_ne_zero (h : s.reaches .l src = true) (hv : (s.source .l src).1 ≠ 0) : execDivsL src x s =
    if signedOverflow (s.d x) (s.source .l src).1 then (s.source .l src).2.divideOverflow
    else (s.source .l src).2.finishQuotientL x (BitVec.ofInt 32 ((s.d x).toInt.tdiv (s.source .l src).1.toInt)) := by
  unfold execDivsL
  rw [State.withDivisor_ne_zero _ h hv]
  simp only [State.d_source]

end

theorem signedOverflow_iff (d v : Long) : signedOverflow d v = true ↔ d = 0x80000000 ∧ v = 0xFFFFFFFF := by
  simp [signedOverflow]

/-- Settles O49: a quotient that fits is written by `State.finishQuotientW_source` or `State.finishQuotientL_source`,
any other is `State.divideOverflow_source`. -/
theorem quotients : Obligations.Quotients := by
  intro s src x small ovf long
  constructor
  · intro h p hv qu qs
    refine ⟨fun hq => ?_, fun hq => ?_, fun hq => ?_, fun hq => ?_⟩
    · refine (execDivuW_ne_zero x h hv).trans ?_
      rw [if_neg (Nat.not_lt.mpr hq), State.finishQuotientW_source]
      simp only [small, BitVec.ofInt_natCast]
      rfl
    · obtain ⟨n, z, hovf⟩ := s.divideOverflow_source .w src
      exact ⟨n, z, (execDivuW_ne_zero x h hv).trans ((if_pos hq).trans hovf)⟩
    · refine (execDivsW_ne_zero x h hv).trans ((if_neg ?_).trans (State.finishQuotientW_source ..))
      show ¬ (qs < -32768 ∨ 32767 < qs)
      omega
    · obtain ⟨n, z, hovf⟩ := s.divideOverflow_source .w src
      exact ⟨n, z, (execDivsW_ne_zero x h hv).trans ((if_pos hq).trans hovf)⟩
  · intro h p hv
    refine ⟨?_, fun hov => ?_, fun hov => ?_⟩
    · exact (execDivuL_ne_zero x h hv).trans (State.finishQuotientL_source ..)
    · exact (execDivsL_ne_zero x h hv).trans
        ((if_neg (mt (signedOverflow_iff _ _).mp hov)).trans (State.finishQuotientL_source ..))
    · obtain ⟨n, z, hovf⟩ := s.divideOverflow_source .l src
      exact ⟨n, z, (execDivsL_ne_zero x h hv).trans ((if_pos ((signedOverflow_iff _ _).mpr hov)).trans hovf)⟩

/-! ### Remainders (43 R310, R311) -/

/-- A remainder is written, then N and Z are drawn. -/
theorem State.remainder_source (s : State) (sz : Size) (src : Ea) (w : RegNo) (r : Long) :
    ∃ n z, (((s.source sz src).2.setD w r).drawNZ false false).commit =
      .next ((State.setD { (s.source sz src).2 with drawCount := (s.source sz src).2.drawCount + 2 } w r).setCcr
        { x := s.ccr.x, n := n, z := z, v := false, c := false }).done := by
  obtain ⟨n, z, h⟩ := ((s.source sz src).2.setD w r).drawNZ_eq false false
  exact ⟨n, z, by rw [h, State.ccr_setD, State.ccr_source]; rfl⟩

theorem execRemuL_ne_zero {s : State} {src : Ea} (w x : RegNo) (h : s.reaches .l src = true)
    (hv : (s.source .l src).1 ≠ 0) : execRemuL src w x s =
      (((s.source .l src).2.setD w (BitVec.ofNat 32 ((s.d x).toNat % (s.source .l src).1.toNat))).drawNZ
        false false).commit := by
  unfold execRemuL
  rw [State.withDivisor_ne_zero _ h hv, State.d_source]

theorem execRemsL_ne_zero {s : State} {src : Ea} (w x : RegNo) (h : s.reaches .l src = true)
    (hv : (s.source .l src).1 ≠ 0) : execRemsL src w x s =
      if signedOverflow (s.d x) (s.source .l src).1 then
        ((s.source .l src).2.draw.2.setD w (s.source .l src).2.draw.1).drawNZV.commit
      else (((s.source .l src).2.setD w (BitVec.ofInt 32 ((s.d x).toInt.tmod (s.source .l src).1.toInt))).drawNZ
        false false).commit := by
  unfold execRemsL
  rw [State.withDivisor_ne_zero _ h hv]
  simp only [State.d_source, Int.tmod_def, Int.mul_comm]

/-- Settles O50: the remainder is written by `State.remainder_source`; for -2^31 by -1 the value is drawn with N, Z and
V. -/
theorem remainders : Obligations.Remainders := by
  intro s src w x h p hv put
  refine ⟨?_, fun hov => ?_, fun hov => ?_⟩
  · obtain ⟨n, z, hr⟩ := s.remainder_source .l src w (BitVec.ofNat 32 ((s.d x).toNat % p.1.toNat))
    exact ⟨n, z, (execRemuL_ne_zero w x h hv).trans hr⟩
  · obtain ⟨n, z, hr⟩ := s.remainder_source .l src w (BitVec.ofInt 32 ((s.d x).toInt.tmod p.1.toInt))
    exact ⟨n, z, (execRemsL_ne_zero w x h hv).trans ((if_neg (mt (signedOverflow_iff _ _).mp hov)).trans hr)⟩
  · obtain ⟨f, hx, hc, hf⟩ := (p.2.draw.2.setD w p.2.draw.1).drawNZV_eq_setCcr
    refine ⟨p.2.draw.1, f.n, f.z, f.v, (execRemsL_ne_zero w x h hv).trans
      ((if_pos ((signedOverflow_iff _ _).mpr hov)).trans ?_)⟩
    have hold : (p.2.draw.2.setD w p.2.draw.1).ccr = s.ccr := State.ccr_source s .l src
    rw [hold] at hx
    have hflags : f = { x := s.ccr.x, n := f.n, z := f.z, v := f.v, c := false } :=
      Ccr.ext_of hx rfl rfl rfl hc
    rw [← hflags, hf]
    rfl

end Sys2Proof.Machine
end

section
/-! PROOFS. Shifts (44_logic_shift_bit.md R329 to R333): the shifted value and the last bit shifted out as numbers. -/

namespace Sys2Proof.Machine

/-! ### Left (44 R330, R332) -/

theorem shiftLeft_eq_ofNat (d : Long) (c : Nat) : d <<< c = BitVec.ofNat 32 (d.toNat * 2 ^ c) := by
  apply BitVec.eq_of_toNat_eq
  simp [Nat.shiftLeft_eq]

/-- The bit that a left shift puts out last is bit 32 of the exact product. -/
theorem carry_left (d : Long) (c : Nat) :
    (if c ≤ 32 then d.getLsbD (32 - c) else false) = decide (d.toNat * 2 ^ c / 2 ^ 32 % 2 = 1) := by
  split
  case isTrue hle =>
    have hsplit : 2 ^ 32 = 2 ^ (32 - c) * 2 ^ c := by rw [← Nat.pow_add, Nat.sub_add_cancel hle]
    rw [hsplit, Nat.mul_div_mul_right _ _ (Nat.two_pow_pos c), BitVec.getLsbD, Nat.testBit_eq_decide_div_mod_eq]
  case isFalse hlt =>
    have hsplit : d.toNat * 2 ^ c = d.toNat * 2 ^ (c - 33) * 2 * 2 ^ 32 := by
      rw [Nat.mul_assoc, Nat.mul_assoc, ← Nat.pow_succ', ← Nat.pow_add]
      congr 2
      omega
    rw [hsplit, Nat.mul_div_cancel _ (Nat.two_pow_pos 32), Nat.mul_mod_left]
    rfl

theorem shiftLogicLeft_eq (d : Long) (c : Nat) : shiftLogicLeft d c =
    { value := BitVec.ofNat 32 (d.toNat * 2 ^ c), carry := decide (d.toNat * 2 ^ c / 2 ^ 32 % 2 = 1) } := by
  have hvalue : (if 32 ≤ c then 0 else d <<< c) = d <<< c := by
    split
    case isTrue hle => exact (BitVec.shiftLeft_eq_zero hle).symm
    case isFalse => rfl
  rw [shiftLogicLeft, hvalue, shiftLeft_eq_ofNat, carry_left]

/-! ### Right (44 R331, R333) -/

/-- The lowest bit is the parity of the signed value. -/
theorem getLsbD_zero_eq_toInt (d : Long) : d.getLsbD 0 = decide (d.toInt % 2 = 1) := by
  rw [BitVec.getLsbD, Nat.testBit_eq_decide_div_mod_eq, decide_eq_decide, BitVec.toInt_eq_toNat_cond]
  split <;> omega

theorem sshiftRight_toInt (d : Long) (c : Nat) : (d.sshiftRight c).toInt = d.toInt / 2 ^ c := by
  rw [BitVec.toInt_sshiftRight, Int.shiftRight_eq_div_pow]
  norm_cast

theorem shiftArithRight_eq (d : Long) (c : Nat) : shiftArithRight d c =
    { value := BitVec.ofInt 32 (d.toInt / 2 ^ c), carry := decide (d.toInt / 2 ^ (c - 1) % 2 = 1) } := by
  have hvalue : (if 32 ≤ c then (if d.getLsbD 31 then 0xFFFFFFFF else 0) else d.sshiftRight c) = d.sshiftRight c := by
    split
    case isTrue hle =>
      apply BitVec.eq_of_getLsbD_eq
      intro i hi
      have hout : ¬ c + i < 32 := by omega
      have hones : (0xFFFFFFFF : Long) = BitVec.allOnes 32 := rfl
      have hsign : d.msb = d.getLsbD 31 := BitVec.msb_eq_getLsbD_last d
      rw [BitVec.getLsbD_sshiftRight, hones, hsign]
      cases d.getLsbD 31 with
      | false => simp [hout]
      | true =>
        rw [if_pos rfl, BitVec.getLsbD_allOnes]
        simp [hi, hout]
    case isFalse => rfl
  have hcarry : (if c ≤ 32 then d.getLsbD (c - 1) else d.getLsbD 31) = (d.sshiftRight (c - 1)).getLsbD 0 := by
    rw [BitVec.getLsbD_sshiftRight]
    split
    case isTrue hle => simp [show c - 1 < 32 by omega]
    case isFalse hlt => simp [show ¬ c - 1 < 32 by omega, BitVec.msb_eq_getLsbD_last]
  rw [shiftArithRight, hvalue, hcarry, getLsbD_zero_eq_toInt, sshiftRight_toInt, ← sshiftRight_toInt d c, BitVec.ofInt_toInt]

theorem shiftLogicRight_eq (d : Long) (c : Nat) : shiftLogicRight d c =
    { value := BitVec.ofInt 32 ((d.toNat : Int) / 2 ^ c), carry := decide ((d.toNat : Int) / 2 ^ (c - 1) % 2 = 1) } := by
  have hvalue : (if 32 ≤ c then 0 else d >>> c) = d >>> c := by
    split
    case isTrue hle => exact (BitVec.ushiftRight_eq_zero hle).symm
    case isFalse => rfl
  have hcarry : (if c ≤ 32 then d.getLsbD (c - 1) else false) = d.getLsbD (c - 1) := by
    split
    case isTrue => rfl
    case isFalse hlt => exact (BitVec.getLsbD_of_ge d _ (by omega)).symm
  have hofInt : BitVec.ofInt 32 ((d.toNat : Int) / 2 ^ c) = d >>> c := by
    have : ((d.toNat : Int) / 2 ^ c) = ((d >>> c).toNat : Int) := by
      rw [BitVec.toNat_ushiftRight, Nat.shiftRight_eq_div_pow]
      norm_cast
    rw [this, BitVec.ofInt_natCast, BitVec.ofNat_toNat, BitVec.setWidth_eq]
  rw [shiftLogicRight, hvalue, hcarry, hofInt, BitVec.getLsbD, Nat.testBit_eq_decide_div_mod_eq]
  congr 2
  norm_cast

/-! ### The instructions -/

/-- A shift by a count, as its value and carry; a count of 0 has its own value and no carry. -/
theorem State.shift_eq (s : State) {f : Long → Nat → Shifted} {c : Nat} {x : RegNo} {r : Long} {cy : Bool}
    (hzero : c = 0 → r = s.d x ∧ cy = false) (hshift : c ≠ 0 → f (s.d x) c = { value := r, carry := cy }) :
    s.shift f c x = .next ((s.setD x r).setCcr
      { x := if c = 0 then s.ccr.x else cy, n := r.getLsbD 31, z := r == 0, v := false, c := cy }).done := by
  unfold State.shift
  by_cases hc : c = 0
  · obtain ⟨rfl, rfl⟩ := hzero hc
    simp [hc, shiftFlags, State.finishD_eq]
  · simp [hc, shiftFlags, State.finishD_eq, hshift hc]

theorem State.shiftLeft_eq (s : State) (c : Nat) (x : RegNo) : s.shift shiftLogicLeft c x = .next
    ((s.setD x (BitVec.ofNat 32 ((s.d x).toNat * 2 ^ c))).setCcr
      { x := if c = 0 then s.ccr.x else decide ((s.d x).toNat * 2 ^ c / 2 ^ 32 % 2 = 1)
        n := (BitVec.ofNat 32 ((s.d x).toNat * 2 ^ c)).getLsbD 31
        z := BitVec.ofNat 32 ((s.d x).toNat * 2 ^ c) == 0
        v := false
        c := decide ((s.d x).toNat * 2 ^ c / 2 ^ 32 % 2 = 1) }).done := by
  refine s.shift_eq (fun hc => ?_) fun _ => shiftLogicLeft_eq (s.d x) c
  subst hc
  have hlt := (s.d x).isLt
  constructor
  · simp
  · simp; omega

/-- Settles O52: the left shifts are one function, and each right shift is its floor division. -/
theorem shifts : Obligations.Shifts := by
  intro s q y x put left right imm reg
  have hleft (c : Nat) : s.shift shiftLogicLeft c x = left c := s.shiftLeft_eq c x
  have harith (c : Nat) : s.shift shiftArithRight c x = right (s.d x).toInt c := by
    refine s.shift_eq (fun hc => ?_) (fun hc => ?_)
    · subst hc
      simp
    · rw [shiftArithRight_eq]
      simp [hc]
  have hlogic (c : Nat) : s.shift shiftLogicRight c x = right (s.d x).toNat c := by
    refine s.shift_eq (fun hc => ?_) (fun hc => ?_)
    · subst hc
      simp
    · rw [shiftLogicRight_eq]
      simp [hc]
  exact ⟨hleft _, hleft _, hleft _, hleft _, harith _, harith _, hlogic _, hlogic _⟩

end Sys2Proof.Machine
end

section
/-! PROOFS. Single bits and the bit-field helpers (44_logic_shift_bit.md R334 to R342). -/

namespace Sys2Proof.Machine

/-! ### Bit instructions (44 R334 to R338) -/

theorem bit_eq_ofNat (b : Nat) : 1#32 <<< b = BitVec.ofNat 32 (2 ^ b) := by
  apply BitVec.eq_of_toNat_eq
  simp [Nat.shiftLeft_eq]

/-- The operand after a bit operation, as a function of the operand and the bit. -/
def BitOp.onBit : BitOp → Long → Long → Long
  | .test, v, _ => v
  | .change, v, b => v ^^^ b
  | .clear, v, b => v &&& ~~~b
  | .set, v, b => v ||| b

theorem BitOp.apply_eq_onBit (op : BitOp) (v : Long) (b : Nat) :
    op.apply v b = op.onBit v (BitVec.ofNat 32 (2 ^ b)) := by
  cases op <;> simp [BitOp.apply, BitOp.onBit, bit_eq_ofNat]

theorem State.bitOp_dn (s : State) (op : BitOp) (n : Nat) (x : RegNo) : s.bitOp op n (.dn x) = .next
    ((s.setD x (op.onBit (s.d x) (BitVec.ofNat 32 (2 ^ (n % 32))))).setCcr
      { s.ccr with z := !(s.d x).getLsbD (n % 32) }).done := by
  rw [← BitOp.apply_eq_onBit]
  rfl

theorem State.bitOp_eq_withTarget (s : State) (op : BitOp) (n : Nat) {dst : Ea} (h : ∀ r, dst ≠ .dn r) :
    s.bitOp op n dst = s.withTarget .b dst fun loc v s1 =>
      let f := zeroFlag (!v.getLsbD (n % 8)) s1.ccr
      if op = .test then (s1.setCcr f).commit else s1.finish loc .b (op.apply v (n % 8)) f := by
  cases dst with
  | dn r => exact absurd rfl (h r)
  | _ => rfl

/-- On a place that is no data register the byte is tested, and written back but by BTST. -/
theorem State.bitOp_place {s : State} {op : BitOp} {n : Nat} {dst : Ea} (h : ∀ r, dst ≠ .dn r)
    (hplace : Ea.isPlace dst = true) (hreach : s.reaches .b dst = true) :
    let p := s.source .b dst
    let f := { s.ccr with z := !p.1.getLsbD (n % 8) }
    s.bitOp op n dst = .next (if op = .test then (p.2.setCcr f).done
      else ((p.2.written .b (op.onBit p.1 (BitVec.ofNat 32 (2 ^ (n % 8)))) (s.locate .b dst)).setCcr f).done) := by
  intro p f
  rw [State.bitOp_eq_withTarget s op n h, State.withTarget_reaches _ hreach]
  simp only [State.ccr_source, BitOp.apply_eq_onBit]
  split
  · rfl
  · exact State.finish_source hplace hreach _ _

/-- Settles O53: each row is the bit routine with its operation and its bit number. -/
theorem bitInstructions : Obligations.BitInstructions := by
  intro s dst y x n m hm
  simp only [List.mem_cons, List.not_mem_nil, or_false] at hm
  obtain rfl | rfl | rfl | rfl | rfl | rfl | rfl | rfl := hm
  · exact ⟨s.bitOp_dn .test _ x, fun h hplace hreach => s.bitOp_place (op := .test) h hplace hreach⟩
  · exact ⟨s.bitOp_dn .test _ x, fun h hplace hreach => s.bitOp_place (op := .test) h hplace hreach⟩
  · exact ⟨s.bitOp_dn .change _ x, fun h hplace hreach => s.bitOp_place (op := .change) h hplace hreach⟩
  · exact ⟨s.bitOp_dn .change _ x, fun h hplace hreach => s.bitOp_place (op := .change) h hplace hreach⟩
  · exact ⟨s.bitOp_dn .clear _ x, fun h hplace hreach => s.bitOp_place (op := .clear) h hplace hreach⟩
  · exact ⟨s.bitOp_dn .clear _ x, fun h hplace hreach => s.bitOp_place (op := .clear) h hplace hreach⟩
  · exact ⟨s.bitOp_dn .set _ x, fun h hplace hreach => s.bitOp_place (op := .set) h hplace hreach⟩
  · exact ⟨s.bitOp_dn .set _ x, fun h hplace hreach => s.bitOp_place (op := .set) h hplace hreach⟩

/-! ### BITREV, BYTEREV, FF1, TAS (44 R339 to R342) -/

theorem reverse_getLsbD (v : Long) {i : Nat} (hi : i < 32) : v.reverse.getLsbD i = v.getLsbD (31 - i) := by
  rw [BitVec.getLsbD_reverse, BitVec.getMsbD_eq_getLsbD]
  simp [hi]

theorem reverseBytes_byte (v : Long) {k : Nat} (hk : k < 4) :
    (reverseBytes v).extractLsb' (8 * k) 8 = v.extractLsb' (8 * (3 - k)) 8 := by
  apply BitVec.eq_of_getLsbD_eq
  intro j hj
  have happ (i : Nat) : (reverseBytes v).getLsbD i = (v.extractLsb' 0 8 ++ v.extractLsb' 8 8 ++
      v.extractLsb' 16 8 ++ v.extractLsb' 24 8 : BitVec (8 + 8 + 8 + 8)).getLsbD i := rfl
  simp only [BitVec.getLsbD_extractLsb', happ, BitVec.getLsbD_append]
  grind

/-- The bits from the top that are 0 before the first 1. -/
theorem leadingZeros_spec (n : Nat) (v : Long) : leadingZeros n v ≤ n ∧
    (∀ i < leadingZeros n v, v.getLsbD (n - 1 - i) = false) ∧
    (leadingZeros n v < n → v.getLsbD (n - 1 - leadingZeros n v) = true) := by
  induction n with
  | zero => simp [leadingZeros]
  | succ n ih =>
    obtain ⟨hle, hzero, hone⟩ := ih
    cases hbit : v.getLsbD n with
    | true => simp [leadingZeros, hbit]
    | false =>
      simp only [leadingZeros, hbit, Bool.false_eq_true, if_false]
      refine ⟨by omega, fun i hi => ?_, fun hlt => ?_⟩
      · cases i with
        | zero => exact hbit
        | succ i =>
          have := hzero i (by omega)
          rwa [show n + 1 - 1 - (i + 1) = n - 1 - i by omega]
      · rw [show n + 1 - 1 - (leadingZeros n v + 1) = n - 1 - leadingZeros n v by omega]
        exact hone (by omega)

theorem execTas_reaches {s : State} {dst : Ea} (hplace : Ea.isPlace dst = true) (h : s.reaches .b dst = true) :
    execTas dst s = .next (((s.source .b dst).2.written .b ((s.source .b dst).1 ||| 0x80) (s.locate .b dst)).setCcr
      { x := s.ccr.x
        n := (s.source .b dst).1.getLsbD 7
        z := (s.source .b dst).1 == 0
        v := false
        c := false }).done := by
  unfold execTas
  rw [State.withTarget_reaches _ h, State.finish_source hplace h, State.ccr_source]

/-- Settles O54. -/
theorem bitFieldHelpersAndTas : Obligations.BitFieldHelpersAndTas := by
  intro s x dst
  obtain ⟨hle, hzero, hone⟩ := leadingZeros_spec 32 (s.d x)
  exact ⟨⟨_, rfl, fun i hi => reverse_getLsbD _ hi⟩, ⟨_, rfl, fun k hk => reverseBytes_byte _ hk⟩,
    ⟨leadingZeros 32 (s.d x), hle, rfl, hzero, hone⟩, fun hplace h => execTas_reaches hplace h⟩

end Sys2Proof.Machine
end

section
/-! PROOFS. Program control and system instructions that raise nothing (45 R360 to R371; 46 R391 to R406). -/

namespace Sys2Proof.Machine

/-! ### Branches and returns (45 R360 to R366) -/

theorem State.branchIf_eq (s : State) (c : Cond) (d : Long) :
    s.branchIf c d = .next (if s.ccr.holds c then s.atPc (s.pc + 2 + d) else s.done) := by
  unfold State.branchIf
  split <;> rfl

theorem execRts_mapped {s : State} (h : s.mappedAt (s.a 7) 4 = true) :
    execRts s = .next (((s.access .read (s.a 7) .l).2.setA 7 (s.a 7 + 4)).atPc (s.access .read (s.a 7) .l).1) := by
  rw [execRts, State.pull_mapped h, State.a_access]
  rfl

/-- Settles O55. -/
theorem branchesAndReturns : Obligations.BranchesAndReturns := fun s c _ _ _ =>
  ⟨s.branchIf_eq c _, s.branchIf_eq c _, s.branchIf_eq c _, rfl, rfl, rfl,
    fun h => ⟨State.callTo_mapped _ h, State.callTo_mapped _ h, State.callTo_mapped _ h⟩, execRts_mapped⟩

/-! ### Scc, TPF, NOP, PULSE (45 R367 to R369; 46 R401) -/

/-- Settles O56. -/
theorem setAndNoOperation : Obligations.SetAndNoOperation := by
  intro s c x w l
  refine ⟨?_, by simp only [List.forall_mem_cons]; exact ⟨rfl, rfl, rfl, rfl, rfl, by simp⟩⟩
  show (s.writeD x .b (if s.ccr.holds c then 0xFF else 0)).commit = _
  rw [State.commit_eq, State.writeD, Size.insert]
  split <;> rfl

/-! ### TRAP and ILLEGAL (45 R370, R371) -/

/-- An exception with its frame and its vector mapped goes on at the handler. -/
theorem State.raise_canEnter {s : State} {k : ExcKind} (h : s.canEnter k = true) :
    ∃ t, s.raise k = .next t ∧ t.afterException = true := by
  simp only [State.canEnter, Bool.and_eq_true] at h
  obtain ⟨⟨hpc, hframe⟩, hvec⟩ := h
  have henter := State.enter_mapped s k.vector (k.stackedPc s) k.level hpc hframe hvec
  exact ⟨_, henter, State.enter_afterException henter⟩

/-- Settles O57. -/
theorem trapsEnterHandlers : Obligations.TrapsEnterHandlers := fun _ _ =>
  ⟨rfl, rfl, State.raise_canEnter, State.raise_canEnter⟩

/-! ### SR, CCR and USP (46 R391 to R396) -/

theorem State.special_ccr_word (s : State) : s.special .ccr = (s.sr &&& 0x00FF).setWidth 32 := by
  have hmask : ∀ i < 32, (0x00FF : Word).getLsbD i = decide (i < 8) := by decide
  apply BitVec.eq_of_getLsbD_eq
  intro i hi
  simp only [State.special, zext8, BitVec.getLsbD_setWidth, BitVec.getLsbD_and, hmask i hi]
  by_cases h8 : i < 8 <;> simp [hi, h8]

/-- A write of the condition codes from a long word: bits 15:5 of SR stay and bits 4:0 are those of the value. -/
theorem State.setCcr_ofBits_sr (s : State) (v : Long) : (s.setCcr (Ccr.ofBits (v.setWidth 5))).sr =
    (s.sr &&& 0xFFE0) ||| (v.setWidth 16 &&& 0x001F) := by
  have hhigh : ∀ i < 16, (0xFFE0 : Word).getLsbD i = decide (5 ≤ i) := by decide
  have hlow : ∀ i < 16, (0x001F : Word).getLsbD i = decide (i < 5) := by decide
  rw [State.setCcr_sr, Ccr.bits_ofBits]
  apply BitVec.eq_of_getLsbD_eq
  intro i hi
  simp only [BitVec.getLsbD_append, BitVec.getLsbD_or, BitVec.getLsbD_and, BitVec.getLsbD_extractLsb',
    BitVec.getLsbD_setWidth, hhigh i hi, hlow i hi]
  by_cases h5 : i < 5
  · simp [h5, show i < 16 from hi]
  · simp [h5, Nat.not_lt.mp h5, show i - 5 < 11 by omega]

theorem exec_moveToSr_reaches {s : State} {ea : Ea} (hs : s.supervisor = true) (h : s.reaches .w ea = true) :
    exec (.moveToSr ea) s = .next ((s.source .w ea).2.setSr ((s.source .w ea).1.setWidth 16)).done := by
  rw [exec_moveToSr, State.privileged_supervisor hs, State.withSource_reaches _ h]
  rfl

theorem execMoveToCcr_reaches {s : State} {ea : Ea} (h : s.reaches .w ea = true) : execMoveToCcr ea s = .next
    { (s.source .w ea).2 with
      sr := ((s.source .w ea).2.sr &&& 0xFFE0) ||| ((s.source .w ea).1.setWidth 16 &&& 0x001F)
      pc := (s.source .w ea).2.cursor } := by
  rw [execMoveToCcr, State.withSource_reaches _ h, ← State.setCcr_ofBits_sr]
  rfl

theorem exec_moveFromUsp {s : State} (h : s.supervisor = true) (r : RegNo) :
    exec (.moveFromUsp r) s = .next (s.setA r s.userSp).done :=
  (State.privileged_supervisor h _).trans rfl

theorem exec_moveToUsp_supervisor {s : State} (h : s.supervisor = true) (r : RegNo) :
    exec (.moveToUsp r) s = .next (s.setUserSp (s.a r)).done := by
  rw [exec_moveToUsp, State.privileged_supervisor h, State.commit_eq]

/-- Settles O58. -/
theorem statusMoves : Obligations.StatusMoves := by
  intro s r ea
  refine ⟨fun hs => ⟨?_, fun h => exec_moveToSr_reaches hs h, fun hdual => ?_, fun hdual => ?_⟩, ?_,
    fun h => execMoveToCcr_reaches h⟩
  · rw [exec_moveFromSr_supervisor hs, State.writeD_word]
  · rw [exec_moveToUsp_supervisor hs, exec_moveFromUsp hs]
    simp [State.setUserSp, State.userSp, hdual, State.done]
  · rw [exec_moveToUsp_supervisor hs, exec_moveFromUsp hs]
    simp [State.setUserSp, State.userSp, hdual, State.done]
  · show (s.writeD r .w (s.special .ccr)).commit = _
    rw [State.special_ccr_word, State.writeD_word, State.commit_eq]

/-! ### MOVEC, STOP, HALT (46 R397, R399, R400) -/

theorem exec_halt (s : State) : exec .halt s = if s.cfg.userHalt then { s with runState := .halted }.commit
    else s.privileged { s with runState := .halted }.commit := by rfl

theorem exec_halt_allowed {s : State} (h : s.supervisor = true ∨ s.cfg.userHalt = true) :
    exec .halt s = .next { s with pc := s.cursor, runState := .halted } := by
  rw [exec_halt]
  split
  · rfl
  · next huser => rw [State.privileged_supervisor (h.resolve_right huser)]; rfl

/-- The user stack pointer after a write of it. -/
theorem State.userSp_setUserSp (s : State) (v : Long) : (s.setUserSp v).userSp = v := by
  unfold State.setUserSp
  split <;> simp_all [State.userSp]

theorem State.control_of_ne (s : State) {code : BitVec 12} (hvbr : code ≠ 0x801) (husp : code ≠ 0x800) :
    s.control code = Sparse.get s.ctrl code.toNat := by
  rw [State.control, if_neg hvbr, if_neg husp]

theorem State.setControl_of_ne (s : State) {code : BitVec 12} (v : Long) (hvbr : code ≠ 0x801) (husp : code ≠ 0x800) :
    s.setControl code v = { s with ctrl := Sparse.set s.ctrl code.toNat v } := by
  rw [State.setControl, if_neg hvbr, if_neg husp]

/-- A control register after a write of a control register with another code (10 R44). -/
theorem State.control_setControl_of_ne (s : State) {code other : BitVec 12} (v : Long) (h : other ≠ code) :
    (s.setControl code v).control other = s.control other := by
  by_cases hvbr : code = 0x801
  · subst hvbr
    have hset : s.setControl 0x801 v = { s with vbr := v &&& 0xFFF00000 } := rfl
    rw [hset, State.control, if_neg h]
    exact (if_neg h).symm
  by_cases husp : code = 0x800
  · subst husp
    have hframe : ∃ usp ssp, s.setControl 0x800 v = { s with usp := usp, ssp := ssp } := by
      by_cases hdual : s.cfg.dualStack = true
      · exact ⟨v, s.ssp, if_pos hdual⟩
      · exact ⟨s.usp, v, if_neg hdual⟩
    obtain ⟨_, _, hset⟩ := hframe
    rw [hset, State.control, State.control, if_neg h, if_neg h]
  · have hne : code.toNat ≠ other.toNat := fun heq => h (BitVec.eq_of_toNat_eq heq.symm)
    rw [s.setControl_of_ne v hvbr husp, State.control, State.control, Sparse.get_set_of_ne _ _ hne]
    rfl

/-- Settles O59: MOVEC by the three cases of its code. -/
theorem controlRegistersStopAndHalt : Obligations.ControlRegistersStopAndHalt := by
  refine ⟨fun s imm => ⟨fun hs => exec_stop_supervisor hs imm, exec_halt_allowed⟩, fun s ry code hs => ⟨fun hcode => ?_,
    fun hcode hwf => ?_⟩⟩
  · rw [exec_movec, State.privileged_supervisor hs, if_neg hcode]
    rfl
  · refine ⟨(s.setControl code (s.reg ry)).done, ?_, ?_, ?_, ?_, ?_,
      fun other hother => s.control_setControl_of_ne _ hother, ?_⟩
    · rw [exec_movec, State.privileged_supervisor hs, if_pos hcode, State.commit_eq]
    · obtain ⟨_, _, _, _, hset⟩ := s.setControl_frame code (s.reg ry)
      rw [hset]
      rfl
    · rintro rfl
      exact ⟨rfl, rfl, rfl, rfl⟩
    · rintro rfl
      have hset : s.setControl 0x800 (s.reg ry) = s.setUserSp (s.reg ry) := rfl
      rw [hset]
      refine ⟨s.userSp_setUserSp _, ?_⟩
      unfold State.setUserSp
      split <;> simp_all [State.done]
    · intro husp hvbr
      rw [s.setControl_of_ne _ hvbr husp]
      refine ⟨?_, rfl, rfl⟩
      rw [State.control_of_ne _ hvbr husp]
      have hget := Sparse.get_set hwf code.toNat code.toNat (s.reg ry)
      simpa [State.done] using hget
    · obtain ⟨_, _, _, _, hset⟩ := s.setControl_frame code (s.reg ry)
      rw [hset]
      exact ⟨rfl, rfl, rfl, rfl⟩

/-! ### Recognized but not simulated (46 R402 to R406) -/

/-- Settles O60. -/
theorem notSimulatedIsRefused : Obligations.NotSimulatedIsRefused := by
  intro s ea r w v
  simp only [List.forall_mem_cons]
  refine ⟨⟨rfl, rfl, rfl, by simp⟩, fun hs => ⟨?_, ⟨?_, ?_, ?_, by simp⟩, ?_, ?_⟩⟩
  all_goals exact State.privileged_supervisor hs _

end Sys2Proof.Machine
end

section
/-! PROOFS. What a step does before it fetches (30 R149; 60 R439, R445, R449), devices and source operands (20 R87,
R91 to R106), and the return from an exception (46 R398; 60 R443). -/

namespace Sys2Proof.Machine

/-! ### Marks, interrupts, the odd PC, the trace (10 R43; 60 R439, R442, R445) -/

theorem stepUsing_fault {s : State} {f : FaultReason} (h : s.fault = some f) (run : Instr → State → Result) :
    stepUsing run s = .fault (.hit f s) := by
  simp [stepUsing, h, State.faulted]

theorem stepUsing_refused {s : State} {r : RefusalReason} (hf : s.fault = none) (h : s.refused = some r)
    (run : Instr → State → Result) : stepUsing run s = .refused (.stop r s) := by
  simp [stepUsing, hf, h, State.refuse]

/-- A context with no mark: by its run state and the interrupt request. -/
theorem stepUsing_unmarked {s : State} (hf : s.fault = none) (hr : s.refused = none) (run : Instr → State → Result) :
    stepUsing run s =
      if s.runState = .halted then .next s
      else if s.interruptDue then s.tick.raise (.interrupt s.level)
      else if s.runState = .stopped then .next s.tick
      else s.tick.cycle run := by
  cases hrun : s.runState <;> simp [stepUsing, hf, hr, hrun]

theorem State.interruptDue_iff (s : State) :
    s.interruptDue = true ↔ s.intMask.toNat < s.level.toNat ∨ (s.level = 7 ∧ s.iplPrev ≠ 7) := by
  simp [State.interruptDue]

/-- Settles O5. -/
theorem stuckContexts : Obligations.StuckContexts := by
  intro s
  refine ⟨fun f hf => ?_, fun r hf hr => ?_, fun hf hr hrun => ?_, fun hf hr hrun hdue => ?_⟩
  · have hstep : step s = .fault (.hit f s) := stepUsing_fault hf exec
    refine ⟨hstep, ?_⟩
    rw [hstep, State.settle, ← hf]
  · have hstep : step s = .refused (.stop r s) := stepUsing_refused hf hr exec
    refine ⟨hstep, ?_⟩
    rw [hstep, State.settle, ← hr]
  · rw [step, stepUsing_unmarked hf hr, if_pos hrun]
  · rw [step, stepUsing_unmarked hf hr, if_neg (by simp [hrun]), if_neg (Bool.eq_false_iff.mp hdue), if_pos hrun]
    rfl

/-- Settles O24. -/
theorem oddProgramCounter : Obligations.OddProgramCounter := by
  intro s hf hr hrun hdue hodd u
  have hstep : step s = if s.afterException then u.doubleFault else u.raise .addressError := by
    rw [step, stepUsing_unmarked hf hr, if_neg (by simp [hrun]), if_neg (Bool.eq_false_iff.mp hdue),
      if_neg (by simp [hrun])]
    exact if_pos hodd
  exact ⟨fun hmark => hstep.trans (if_neg (Bool.eq_false_iff.mp hmark)), fun hmark => hstep.trans (if_pos hmark)⟩

/-- Settles O25. -/
theorem interruptIsTaken : Obligations.InterruptIsTaken := by
  intro s hf hr hrun hdue
  rw [step, stepUsing_unmarked hf hr, if_neg hrun, if_pos (s.interruptDue_iff.mpr hdue)]
  rfl

/-- Settles O26. -/
theorem traceAfterInstruction : Obligations.TraceAfterInstruction := by
  refine fun r s => ⟨?_, fun hmark hrun => ?_, fun h => ?_, fun _ => rfl, fun _ => rfl⟩
  · cases r <;> rfl
  · exact if_pos (by simp [hmark, hrun])
  · refine if_neg ?_
    rcases h with hmark | hhalt
    · simp [hmark]
    · simp [hhalt]

/-! ### Devices (20 R87) -/

theorem State.ioAt_iff (s : State) (a : Long) (n : Nat) :
    s.ioAt a n = true ↔ ∃ j < n, s.cfg.isIo (a + BitVec.ofNat 32 j).toNat = true := by
  simp [State.ioAt, spanAddrs]

/-- Settles O12. -/
theorem deviceAccess : Obligations.DeviceAccess := by
  refine ⟨?_, fun s a sz k h => ?_, rfl, fun a => rfl⟩
  · intro s a sz k v hmap hio u
    have hio := (s.ioAt_iff a sz.bytes).mpr hio
    rw [State.load_mapped k hmap, State.store_mapped v hmap, State.access, if_pos hio, State.deposit, if_pos hio]
    exact ⟨rfl, rfl⟩
  · obtain ⟨hmap, hio⟩ := (s.plainAt_iff a sz.bytes).mp h
    rw [State.load_mapped k hmap, State.access_plain k hio]

/-! ### Source operands (20 R91 to R106) -/

theorem State.autoUpdate_eq_with (s : State) (sz : Size) (e : Ea) :
    ∃ r p q, s.autoUpdate sz e = { s with aregs := r, ssp := p, usp := q } := by
  cases e with
  | postInc n | preDec n => exact s.setA_eq_with n _
  | _ => exact ⟨_, _, _, rfl⟩

/-- An auto mode on A7 moves the stack pointer alone. -/
theorem State.autoUpdate_aregs_of_seven (s : State) (sz : Size) {e : Ea} (h : 7 ∈ Ea.autoRegs e) :
    (s.autoUpdate sz e).aregs = s.aregs := by
  cases e with
  | postInc n | preDec n =>
    obtain rfl : n = 7 := (List.mem_singleton.mp h).symm
    simp only [State.autoUpdate, State.setA]
    split
    next hlt => exact absurd hlt (by decide)
    next => split <;> rfl
  | _ => simp [Ea.autoRegs] at h

/-- A memory operand is read after its auto mode has changed the register. -/
theorem State.source_mem {s : State} {sz : Size} {e : Ea} {a : Long} (h : s.locate sz e = .mem a) :
    s.source sz e = (s.autoUpdate sz e).access .read a sz := by
  rw [State.source, h]
  rfl

theorem Size.trunc_byte (sz : Size) (v : Byte) : sz.trunc (v.setWidth 32) = v.setWidth 32 := by
  cases sz <;> simp [Size.trunc, zext8, zext16]

/-- Settles O14. -/
theorem sourceOperandRead : Obligations.SourceOperandRead := by
  intro s sz e p u drawn
  have hkept := s.autoUpdate_addressesKept sz e
  have hio (a : Long) : u.ioAt a sz.bytes = s.ioAt a sz.bytes := State.ioAt_congr (State.autoUpdate_cfg ..) a _
  refine ⟨?_, ?_, ?_, ?_, ?_, fun a ha h => ?_, fun a ha h => ?_, Size.trunc_source sz s e,
    State.autoUpdate_of_autoRegs_nil s sz, hkept.others, ?_, hkept.pointers, hkept.inactive,
    s.autoUpdate_aregs_of_seven sz⟩
  · rintro n rfl; rfl
  · rintro n rfl; rfl
  · rintro v rfl
    show (sz.trunc (v.setWidth 32), s) = _
    rw [Size.trunc_byte]
  · rintro v rfl; rfl
  · rintro v rfl; rfl
  · have hplain : u.ioAt a sz.bytes = false := (hio a).trans h
    show s.source sz e = _
    rw [State.source_mem ha, State.access_plain .read hplain, State.peek_congr (State.autoUpdate_mem ..)]
  · have hdevice : u.ioAt a sz.bytes = true := (hio a).trans h
    show s.source sz e = _
    rw [State.source_mem ha, State.access, if_pos hdevice, State.draw, State.logIo, State.autoUpdate_drawCount,
      State.autoUpdate_ioLog]
  · obtain ⟨r, q, q', hu⟩ := s.autoUpdate_eq_with sz e
    show s.autoUpdate sz e = _
    simp only [u, hu]

/-! ### Return from exception (46 R398; 60 R443, R447) -/

theorem frameFormatOk_iff (f : Long) :
    frameFormatOk f = true ↔ 4 ≤ (f.extractLsb' 28 4).toNat ∧ (f.extractLsb' 28 4).toNat ≤ 7 := by
  have hformat : f.extractLsb' 30 2 = (f.extractLsb' 28 4).extractLsb' 2 2 := by
    apply BitVec.eq_of_getLsbD_eq
    intro i hi
    simp [hi, show 2 + i < 4 by omega, ← Nat.add_assoc]
  have hfield : ∀ b : BitVec 4, (b.extractLsb' 2 2 == 1#2) = true ↔ 4 ≤ b.toNat ∧ b.toNat ≤ 7 := by decide
  rw [frameFormatOk, hformat, hfield]

/-- With the frame mapped the return is decided by the format alone. -/
theorem exec_rte_mapped {s : State} (hs : s.supervisor = true) (hmap : s.mappedAt (s.a 7) 4 = true)
    (hmap' : s.mappedAt (s.a 7 + 4) 4 = true) :
    let p := s.access .read (s.a 7) .l
    let q := p.2.access .read (s.a 7 + 4) .l
    exec .rte s =
      if frameFormatOk p.1 then .next (((q.2.setA 7 (s.a 7 + 8 + (p.1.extractLsb' 28 2).setWidth 32)).setSr
        (p.1.extractLsb' 0 16)).atPc q.1)
      else q.2.raise .formatError := by
  intro p q
  have hnext : p.2.load .read (s.a 7 + 4) .l = .ok q :=
    State.load_mapped (sz := .l) .read ((State.mappedAt_congr (State.access_cfg ..) _ _).trans hmap')
  rw [exec_rte, State.privileged_supervisor hs, State.returnFromException, State.load_mapped (sz := .l) .read hmap]
  show withValue (p.2.load .read (s.a 7 + 4) .l) _ = _
  rw [hnext]
  rfl

/-- Settles O28. -/
theorem returnFromException : Obligations.ReturnFromException := by
  intro s hs hmap hmap' p q hlow hhigh
  have hsuper : q.2.supervisor = true := (State.supervisor_congr (by simp [q, p])).trans hs
  have honUsp : q.2.onUsp = false := by simp [State.onUsp, hsuper]
  rw [exec_rte_mapped hs hmap hmap', if_pos ((frameFormatOk_iff _).mpr ⟨hlow, hhigh⟩), State.setA_seven_eq_ssp honUsp]
  rfl

/-- Settles O29. -/
theorem formatError : Obligations.FormatError := by
  intro s hs hmap hmap' p q hformat
  have hbad : ¬ frameFormatOk p.1 = true := fun hok => by
    obtain ⟨hlow, hhigh⟩ := (frameFormatOk_iff _).mp hok
    omega
  have hpc : q.2.pc = s.pc := by simp [q, p]
  refine ⟨?_, fun hplain hplain' => ?_⟩
  · rw [exec_rte_mapped hs hmap hmap', if_neg hbad, ← hpc]
    rfl
  · have hp : p.2 = s := congrArg Prod.snd (State.access_plain (sz := .l) .read hplain)
    show (p.2.access .read (s.a 7 + 4) .l).2 = s
    rw [hp, State.access_plain (sz := .l) .read hplain']

/-! ### Entry and return (60 R434, R447; 46 R398) -/

/-- The frame's first word holds the misalignment and a format that a return accepts. -/
theorem frameWord_return (sp : Long) (vec : BitVec 8) (old : Word) :
    (frameWord sp vec old).extractLsb' 28 2 = sp.extractLsb' 0 2 ∧ frameFormatOk (frameWord sp vec old) = true := by
  obtain ⟨hformat, -⟩ := frameWord_fields sp vec old
  have hlow : (frameWord sp vec old).extractLsb' 28 2 = ((frameWord sp vec old).extractLsb' 28 4).extractLsb' 0 2 := by
    apply BitVec.eq_of_getLsbD_eq
    intro i hi
    simp [hi, show i < 4 by omega]
  have hfield : ∀ m : BitVec 2, (4 + m.setWidth 4 : BitVec 4).extractLsb' 0 2 = m := by decide
  have hrange : ∀ m : BitVec 2, 4 ≤ (4 + m.setWidth 4 : BitVec 4).toNat ∧ (4 + m.setWidth 4 : BitVec 4).toNat ≤ 7 := by
    decide
  exact ⟨by rw [hlow, hformat, hfield], (frameFormatOk_iff _).mpr (hformat ▸ hrange _)⟩

theorem alignDown_add_misalignment (sp : Long) :
    alignDown sp - 8 + 8 + (sp.extractLsb' 0 2).setWidth 32 = sp := by
  have hmask : ∀ i < 32, (0xFFFFFFFC : Long).getLsbD i = decide (2 ≤ i) := by decide
  have hlow : ∀ i < 32, ((sp.extractLsb' 0 2).setWidth 32 : Long).getLsbD i = (decide (i < 2) && sp.getLsbD i) := by
    intro i hi
    simp [hi]
  have hdisjoint : alignDown sp &&& (sp.extractLsb' 0 2).setWidth 32 = 0#32 := by
    apply BitVec.eq_of_getLsbD_eq
    intro i hi
    rw [BitVec.getLsbD_and, alignDown, BitVec.getLsbD_and, hmask i hi, hlow i hi, BitVec.getLsbD_zero]
    by_cases h2 : i < 2
    · simp [h2]
    · simp [h2]
  rw [BitVec.sub_add_cancel, BitVec.add_eq_or_of_and_eq_zero _ _ hdisjoint]
  apply BitVec.eq_of_getLsbD_eq
  intro i hi
  rw [BitVec.getLsbD_or, alignDown, BitVec.getLsbD_and, hmask i hi, hlow i hi]
  by_cases h2 : i < 2
  · simp [h2]
  · simp [h2, Nat.not_lt.mp h2]

theorem State.entered_a_seven (s : State) (vec : BitVec 8) (pc : Long) (level : Option (BitVec 3)) :
    (s.entered vec pc level).a 7 = s.frameTop level - 8 :=
  (State.a_seven_eq_ssp (State.onUsp_of_entrySr (s.entered_sr vec pc level))).trans (s.entered_ssp vec pc level)

theorem State.entered_kept (s : State) (vec : BitVec 8) (pc : Long) (level : Option (BitVec 3)) :
    (s.entered vec pc level).usp = s.usp ∧ (s.entered vec pc level).dregs = s.dregs ∧
      (s.entered vec pc level).aregs = s.aregs ∧ (s.entered vec pc level).vbr = s.vbr ∧
      (s.entered vec pc level).ctrl = s.ctrl :=
  ⟨by rw [s.entered_eq_with vec pc level], by rw [s.entered_eq_with vec pc level],
    by rw [s.entered_eq_with vec pc level], by rw [s.entered_eq_with vec pc level],
    by rw [s.entered_eq_with vec pc level]⟩

/-- A return reads the frame of the entry back. -/
theorem exec_rte_entered {s : State} {vec : BitVec 8} {pc : Long} {level : Option (BitVec 3)} (hwf : s.mem.wf = true)
    (hpc : s.plainAt (s.frameTop level - 4) 4 = true) (hframe : s.plainAt (s.frameTop level - 8) 4 = true) :
    exec .rte (s.entered vec pc level) = .next
      { s.entered vec pc level with ssp := (s.entering level).a 7, sr := s.sr &&& srMask, pc := pc } := by
  have hcfg : (s.entered vec pc level).cfg = s.cfg := by rw [s.entered_eq_with vec pc level]
  have hmem := s.entered_mem vec pc level
  have ha := s.entered_a_seven vec pc level
  have hnext : s.frameTop level - 8 + 4 = s.frameTop level - 4 := by bv_omega
  have hsuper : (s.entered vec pc level).supervisor = true := by
    rw [State.supervisor, s.entered_sr, entrySr_supervisor]
  obtain ⟨hpcMap, hpcIo⟩ := (s.plainAt_iff _ _).mp hpc
  obtain ⟨hframeMap, hframeIo⟩ := (s.plainAt_iff _ _).mp hframe
  have hword : (s.entered vec pc level).access .read (s.frameTop level - 8) .l =
      (frameWord ((s.entering level).a 7) vec s.sr, s.entered vec pc level) := by
    rw [State.access_plain (sz := .l) .read ((State.ioAt_congr hcfg _ _).trans hframeIo), State.peek_congr hmem,
      s.frameStacked_peek_frame vec pc level hwf hframeIo]
  have hstacked : (s.entered vec pc level).access .read (s.frameTop level - 4) .l = (pc, s.entered vec pc level) := by
    rw [State.access_plain (sz := .l) .read ((State.ioAt_congr hcfg _ _).trans hpcIo), State.peek_congr hmem,
      s.frameStacked_peek_pc vec pc level hwf hpcIo]
  obtain ⟨hmis, hok⟩ := frameWord_return ((s.entering level).a 7) vec s.sr
  obtain ⟨-, -, -, -, hsr⟩ := frameWord_fields ((s.entering level).a 7) vec s.sr
  have hmap : (s.entered vec pc level).mappedAt ((s.entered vec pc level).a 7) 4 = true := by
    rw [ha, State.mappedAt_congr hcfg, hframeMap]
  have hmap' : (s.entered vec pc level).mappedAt ((s.entered vec pc level).a 7 + 4) 4 = true := by
    rw [ha, hnext, State.mappedAt_congr hcfg, hpcMap]
  rw [exec_rte_mapped hsuper hmap hmap', ha, hnext, hword, hstacked, if_pos hok, hmis, hsr,
    State.setA_seven_eq_ssp (State.onUsp_of_entrySr (s.entered_sr vec pc level)), State.frameTop,
    alignDown_add_misalignment]
  rfl

theorem and_srMask_of_reserved_zero {w : Word} (h : w &&& ~~~srMask = 0) : w &&& srMask = w := by
  apply BitVec.eq_of_getLsbD_eq
  intro i hi
  rw [BitVec.getLsbD_and]
  cases hbit : w.getLsbD i with
  | false => rfl
  | true => exact (reserved_zero_iff w).mp h i hi hbit

/-- Settles O30. -/
theorem entryThenReturn : Obligations.EntryThenReturn := by
  intro s t u vec pc level hwf hreserved sp hpc hframe hvec henter hrte
  have hmap {a : Long} {n : Nat} (h : s.plainAt a n = true) : s.mappedAt a n = true := ((s.plainAt_iff a n).mp h).1
  rw [s.enter_mapped vec pc level (hmap hpc) (hmap hframe) (hmap hvec)] at henter
  obtain rfl : s.entered vec pc level = t := Host.Outcome.next.inj henter
  rw [exec_rte_entered hwf hpc hframe] at hrte
  obtain rfl := Host.Outcome.next.inj hrte
  have hsr := and_srMask_of_reserved_zero hreserved
  obtain ⟨husp, hdregs, haregs, hvbr, hctrl⟩ := s.entered_kept vec pc level
  refine ⟨hsr, State.a_seven_eq_ssp (State.onUsp_of_entrySr rfl), husp, rfl, hdregs, haregs, hvbr, hctrl, fun k hk => ?_⟩
  rw [← s.frameStacked_byteAt vec pc level hk, State.byteAt, s.entered_mem vec pc level, State.byteAt]

end Sys2Proof.Machine
end

section
/-! PROOFS. MOVEM (41_data_movement.md R207, R208): the run of long words as a list of registers with their places. -/

namespace Sys2Proof.Machine

/-! ### General registers (10 R30 to R33) -/

theorem State.reg_congr {s t : State} (hd : t.dregs = s.dregs) (ha : ∀ n, t.a n = s.a n) (r : GReg) : t.reg r = s.reg r := by
  cases r with
  | d n => exact State.d_congr hd n
  | a n => exact ha n

theorem State.reg_deposit (s : State) (a : Long) (sz : Size) (v : Long) (r : GReg) :
    (s.deposit a sz v).reg r = s.reg r :=
  State.reg_congr (State.deposit_dregs ..) (State.a_deposit s a sz v) r

theorem State.reg_access (s : State) (k : AccessKind) (a : Long) (sz : Size) (r : GReg) :
    (s.access k a sz).2.reg r = s.reg r :=
  State.reg_congr (State.access_dregs ..) (State.a_access s k a sz) r

theorem State.reg_setReg (s : State) (r q : GReg) (v : Long) : (s.setReg r v).reg q = if r = q then v else s.reg q := by
  cases r with
  | d n =>
    cases q with
    | d m => simp [State.setReg, State.reg, State.d_setD]
    | a m => rfl
  | a n =>
    cases q with
    | d m => simp [State.setReg, State.reg]
    | a m => simp [State.setReg, State.reg, State.a_setA]

theorem State.setReg_eq_with (s : State) (r : GReg) (v : Long) :
    ∃ ds as p q, s.setReg r v = { s with dregs := ds, aregs := as, ssp := p, usp := q } := by
  cases r with
  | d n => exact ⟨_, _, _, _, rfl⟩
  | a n =>
    obtain ⟨as, p, q, h⟩ := s.setA_eq_with n v
    exact ⟨s.dregs, as, p, q, h⟩

/-! ### The registers of a mask and their places (41 R207) -/

/-- The mask bits below a bit: how many long words stand before its own. -/
def maskRank (mask : Word) (i : Nat) : Nat := ((List.range i).filter fun j => mask.getLsbD j).length

theorem filter_range_getElem? (p : Nat → Bool) {n i : Nat} (hi : i < n) (hp : p i = true) :
    ((List.range n).filter p)[((List.range i).filter p).length]? = some i := by
  induction n with
  | zero => exact absurd hi (Nat.not_lt_zero i)
  | succ n ih =>
    rw [List.range_succ, List.filter_append]
    rcases Nat.lt_succ_iff_lt_or_eq.mp hi with hlt | rfl
    · rw [List.getElem?_append_left (List.getElem?_eq_some_iff.mp (ih hlt)).1, ih hlt]
    · simp [hp]

theorem maskRegs_getElem? {mask : Word} {i : Nat} (hi : i < 16) (hbit : mask.getLsbD i = true) :
    (maskRegs mask)[maskRank mask i]? = some (maskReg i) := by
  rw [maskRegs, List.getElem?_map, maskRank, filter_range_getElem? _ hi hbit]
  rfl

/-- Every register of the run stands at the rank of a mask bit. -/
theorem maskRank_of_lt {mask : Word} {k : Nat} (hk : k < (maskRegs mask).length) :
    ∃ i < 16, mask.getLsbD i = true ∧ maskRank mask i = k := by
  let bits := (List.range 16).filter fun i => mask.getLsbD i
  have hlen : k < bits.length := by simpa [maskRegs] using hk
  have hmem : bits[k] ∈ bits := List.getElem_mem hlen
  obtain ⟨hrange, hbit⟩ := List.mem_filter.mp hmem
  have hlt : bits[k] < 16 := List.mem_range.mp hrange
  have hrank : bits[maskRank mask bits[k]]? = some bits[k] := filter_range_getElem? _ hlt hbit
  have hnodup : bits.Nodup := List.nodup_range.filter _
  obtain ⟨hr, hget⟩ := List.getElem?_eq_some_iff.mp hrank
  exact ⟨bits[k], hlt, hbit, (hnodup.getElem_inj_iff).mp hget⟩

theorem maskReg_injective : ∀ i < 16, ∀ j < 16, maskReg i = maskReg j → i = j := by decide

theorem maskRegs_nodup (mask : Word) : (maskRegs mask).Nodup := by
  refine (List.nodup_range.filter _).map_on fun i hi j hj h => ?_
  obtain ⟨hi, -⟩ := List.mem_filter.mp hi
  obtain ⟨hj, -⟩ := List.mem_filter.mp hj
  exact maskReg_injective i (List.mem_range.mp hi) j (List.mem_range.mp hj) h

theorem maskRegs_length_le (mask : Word) : (maskRegs mask).length ≤ 16 := by
  rw [maskRegs, List.length_map]
  exact (List.length_filter_le _ _).trans (by simp)

theorem maskReg_mem_iff {mask : Word} {i : Nat} (hi : i < 16) : maskReg i ∈ maskRegs mask ↔ mask.getLsbD i = true := by
  rw [maskRegs, List.mem_map]
  constructor
  · rintro ⟨j, hj, heq⟩
    obtain ⟨hj, hbit⟩ := List.mem_filter.mp hj
    rwa [← maskReg_injective j (List.mem_range.mp hj) i hi heq]
  · exact fun hbit => ⟨i, List.mem_filter.mpr ⟨List.mem_range.mpr hi, hbit⟩, rfl⟩

/-- The address of the long word with a number in a run. -/
def runPlace (a : Long) (k : Nat) : Long := a + BitVec.ofNat 32 (4 * k)

theorem runPlace_zero (a : Long) : runPlace a 0 = a := by simp [runPlace]

theorem runPlace_succ (a : Long) (k : Nat) : runPlace (a + 4) k = runPlace a (k + 1) := by
  simp only [runPlace]
  bv_omega

/-- The long words of a run that does not wrap share no byte. -/
theorem runPlace_disjoint (a : Long) {k : Nat} (hk : k < 16) : ∀ b ∈ spanAddrs a 4, b ∉ spanAddrs (runPlace (a + 4) k) 4 := by
  simp only [spanAddrs, List.mem_map, List.mem_range, runPlace]
  rintro b ⟨i, hi, rfl⟩ ⟨j, hj, hij⟩
  bv_omega

/-! ### Stores (41 R207) -/

/-- The state after a list of registers is stored at rising addresses. -/
def State.storedRegs (s : State) : List GReg → Long → State
  | [], _ => s
  | r :: rs, a => (s.deposit a .l (s.reg r)).storedRegs rs (a + 4)

theorem storeRegs_mapped {rs : List GReg} {a : Long} {s : State}
    (h : ∀ k < rs.length, s.mappedAt (runPlace a k) 4 = true) : storeRegs rs a s = .ok (s.storedRegs rs a) := by
  induction rs generalizing a s with
  | nil => rfl
  | cons r rs ih =>
    have hfirst : s.mappedAt a 4 = true := runPlace_zero a ▸ h 0 (Nat.zero_lt_succ _)
    rw [storeRegs, State.store_mapped (sz := .l) _ hfirst]
    refine ih fun k hk => ?_
    rw [runPlace_succ, State.mappedAt_congr (State.deposit_cfg ..)]
    exact h (k + 1) (Nat.succ_lt_succ hk)

theorem State.storedRegs_eq_with (s : State) (rs : List GReg) (a : Long) :
    ∃ m l, s.storedRegs rs a = { s with mem := m, ioLog := l } := by
  induction rs generalizing a s with
  | nil => exact ⟨_, _, rfl⟩
  | cons r rs ih =>
    obtain ⟨m, l, hstore⟩ := s.deposit_eq_with a .l (s.reg r)
    obtain ⟨m', l', hrest⟩ := ih (s.deposit a .l (s.reg r)) (a + 4)
    exact ⟨m', l', by rw [State.storedRegs, hrest, hstore]⟩

/-- A long word apart from those stored stays. -/
theorem State.storedRegs_peek_of_disjoint (s : State) {rs : List GReg} {a b : Long}
    (h : ∀ k < rs.length, ∀ j ∈ spanAddrs b 4, j ∉ spanAddrs (runPlace a k) 4) :
    (s.storedRegs rs a).peek b .l = s.peek b .l := by
  induction rs generalizing a s with
  | nil => rfl
  | cons r rs ih =>
    have hfirst : ∀ j ∈ spanAddrs b 4, j ∉ spanAddrs a 4 := runPlace_zero a ▸ h 0 (Nat.zero_lt_succ _)
    have hrest : ∀ k < rs.length, ∀ j ∈ spanAddrs b 4, j ∉ spanAddrs (runPlace (a + 4) k) 4 := fun k hk => by
      rw [runPlace_succ]
      exact h (k + 1) (Nat.succ_lt_succ hk)
    rw [State.storedRegs, ih _ hrest, State.peek_deposit_of_disjoint (sz := .l) (sz' := .l) s _ hfirst]

/-- In plain memory each register of the list stands at its place. -/
theorem State.storedRegs_peek {s : State} {rs : List GReg} {a : Long} (hwf : s.mem.wf = true) (hlen : rs.length ≤ 16)
    (hplain : ∀ k < rs.length, s.ioAt (runPlace a k) 4 = false) {k : Nat} {r : GReg} (hr : rs[k]? = some r) :
    (s.storedRegs rs a).peek (runPlace a k) .l = s.reg r := by
  induction rs generalizing a s k with
  | nil => simp at hr
  | cons q rs ih =>
    have hle : rs.length < 16 := hlen
    rw [State.storedRegs]
    cases k with
    | zero =>
      obtain rfl : q = r := by simpa using hr
      have hfirst : s.ioAt a 4 = false := runPlace_zero a ▸ hplain 0 (Nat.zero_lt_succ _)
      rw [runPlace_zero, State.storedRegs_peek_of_disjoint _ fun k hk => runPlace_disjoint a (by omega),
        State.peek_deposit_long _ hwf hfirst]
    | succ k =>
      rw [← runPlace_succ, ih (State.deposit_wf hwf _ _ _) hle.le (fun k hk => ?_) (by simpa using hr), State.reg_deposit]
      rw [runPlace_succ, State.ioAt_congr (State.deposit_cfg ..)]
      exact hplain (k + 1) (Nat.succ_lt_succ hk)

/-! ### Loads (41 R208) -/

/-- The state after a list of registers is loaded from rising addresses. -/
def State.loadedRegs (s : State) : List GReg → Long → State
  | [], _ => s
  | r :: rs, a => ((s.access .read a .l).2.setReg r (s.access .read a .l).1).loadedRegs rs (a + 4)

/-- A load of a register changes no byte of memory, no parameter, no flag and not the cursor. -/
theorem State.loadedReg_kept (s : State) (r : GReg) (a : Long) :
    let t := (s.access .read a .l).2.setReg r (s.access .read a .l).1
    t.mem = s.mem ∧ t.cfg = s.cfg ∧ t.sr = s.sr ∧ t.cursor = s.cursor := by
  intro t
  obtain ⟨_, _, _, _, h⟩ := (s.access .read a .l).2.setReg_eq_with r (s.access .read a .l).1
  simp only [t, h, State.access_mem, State.access_cfg, State.access_sr, State.access_cursor, and_self]

theorem loadRegs_mapped {rs : List GReg} {a : Long} {s : State}
    (h : ∀ k < rs.length, s.mappedAt (runPlace a k) 4 = true) : loadRegs rs a s = .ok (s.loadedRegs rs a) := by
  induction rs generalizing a s with
  | nil => rfl
  | cons r rs ih =>
    have hfirst : s.mappedAt a 4 = true := runPlace_zero a ▸ h 0 (Nat.zero_lt_succ _)
    obtain ⟨-, hcfg, -, -⟩ := s.loadedReg_kept r a
    rw [loadRegs, State.load_mapped (sz := .l) .read hfirst]
    show loadRegs rs (a + 4) ((s.access .read a .l).2.setReg r (s.access .read a .l).1) = _
    rw [ih fun k hk => ?_]
    · rfl
    · rw [State.mappedAt_congr hcfg, runPlace_succ]
      exact h (k + 1) (Nat.succ_lt_succ hk)

theorem State.loadedRegs_kept (s : State) (rs : List GReg) (a : Long) :
    (s.loadedRegs rs a).mem = s.mem ∧ (s.loadedRegs rs a).sr = s.sr ∧ (s.loadedRegs rs a).cursor = s.cursor := by
  induction rs generalizing a s with
  | nil => exact ⟨rfl, rfl, rfl⟩
  | cons r rs ih =>
    obtain ⟨hmem, -, hsr, hcursor⟩ := s.loadedReg_kept r a
    obtain ⟨hmem', hsr', hcursor'⟩ := ih ((s.access .read a .l).2.setReg r (s.access .read a .l).1) (a + 4)
    exact ⟨hmem'.trans hmem, hsr'.trans hsr, hcursor'.trans hcursor⟩

theorem State.loadedRegs_reg_of_notMem (s : State) {rs : List GReg} (a : Long) {r : GReg} (h : r ∉ rs) :
    (s.loadedRegs rs a).reg r = s.reg r := by
  induction rs generalizing a s with
  | nil => rfl
  | cons q rs ih =>
    rw [List.mem_cons, not_or] at h
    obtain ⟨hne, hrest⟩ := h
    rw [State.loadedRegs, ih _ _ hrest, State.reg_setReg, if_neg (Ne.symm hne), State.reg_access]

/-- In plain memory each register of the list takes the long word at its place. -/
theorem State.loadedRegs_reg {s : State} {rs : List GReg} {a : Long} (hnodup : rs.Nodup)
    (hplain : ∀ k < rs.length, s.ioAt (runPlace a k) 4 = false) {k : Nat} {r : GReg} (hr : rs[k]? = some r) :
    (s.loadedRegs rs a).reg r = s.peek (runPlace a k) .l := by
  induction rs generalizing a s k with
  | nil => simp at hr
  | cons q rs ih =>
    obtain ⟨hq, hnodup⟩ := List.nodup_cons.mp hnodup
    rw [State.loadedRegs]
    cases k with
    | zero =>
      obtain rfl : q = r := by simpa using hr
      have hfirst : s.ioAt a 4 = false := runPlace_zero a ▸ hplain 0 (Nat.zero_lt_succ _)
      rw [State.loadedRegs_reg_of_notMem _ _ hq, State.reg_setReg, if_pos rfl, runPlace_zero,
        State.access_plain (sz := .l) .read hfirst]
    | succ k =>
      obtain ⟨hmem, hcfg, -, -⟩ := s.loadedReg_kept q a
      rw [ih hnodup (fun k hk => ?_) (by simpa using hr), runPlace_succ, State.peek_congr hmem]
      rw [runPlace_succ, State.ioAt_congr hcfg]
      exact hplain (k + 1) (Nat.succ_lt_succ hk)

/-! ### MOVEM -/

/-- The two modes of MOVEM name an address and change no register (41 R207). -/
theorem State.movem_mode (s : State) {n : RegNo} {d16 : Word} {e : Ea} (h : e ∈ [Ea.ind n, .disp n d16]) :
    s.locate .l e = .mem (s.address .l e) ∧ s.autoUpdate .l e = s := by
  simp only [List.mem_cons, List.not_mem_nil, or_false] at h
  obtain rfl | rfl := h <;> exact ⟨rfl, rfl⟩

/-- What holds at the place of every mask bit holds along the run. -/
theorem runPlace_of_mask {mask : Word} {a : Long} {p : Long → Prop}
    (h : ∀ i < 16, mask.getLsbD i = true → p (runPlace a (maskRank mask i))) :
    ∀ k < (maskRegs mask).length, p (runPlace a k) := fun k hk => by
  obtain ⟨i, hi, hbit, rfl⟩ := maskRank_of_lt hk
  exact h i hi hbit

/-- Settles O39. -/
theorem movemStores : Obligations.MovemStores := by
  intro s mask n d16 dst hdst a place hmap
  obtain ⟨hloc, hauto⟩ := s.movem_mode hdst
  obtain ⟨m, l, hstored⟩ := s.storedRegs_eq_with (maskRegs mask) a
  have hstore := storeRegs_mapped (s := s) (runPlace_of_mask (p := fun b => s.mappedAt b 4 = true) hmap)
  refine ⟨(s.storedRegs (maskRegs mask) a).done, ?_, ?_⟩
  · show execMovemToMem mask dst s = _
    rw [execMovemToMem, State.withAddress_mem _ hloc, hauto, hstore]
    rfl
  · have hplaces (hwf : s.mem.wf = true) (hplain : ∀ i < 16, mask.getLsbD i = true → s.ioAt (place i) 4 = false) (i : Nat)
        (hi : i < 16) (hbit : mask.getLsbD i = true) :
        (s.storedRegs (maskRegs mask) a).peek (place i) .l = s.reg (maskReg i) :=
      State.storedRegs_peek hwf (maskRegs_length_le mask)
        (runPlace_of_mask (p := fun b => s.ioAt b 4 = false) hplain) (maskRegs_getElem? hi hbit)
    have hreg (i : Nat) :
        s.reg (maskReg i) = if i < 8 then s.d (BitVec.ofNat 3 i) else s.a (BitVec.ofNat 3 (i - 8)) := by
      rw [maskReg]
      split <;> rfl
    rw [hstored] at hplaces ⊢
    exact ⟨rfl, rfl, rfl, rfl, rfl, rfl, fun hwf hplain i hi hbit => (hplaces hwf hplain i hi hbit).trans (hreg i)⟩

/-- Settles O40. -/
theorem movemLoads : Obligations.MovemLoads := by
  intro s mask n d16 src hsrc a place hmap
  obtain ⟨hloc, hauto⟩ := s.movem_mode hsrc
  obtain ⟨hmem, hsr, hcursor⟩ := s.loadedRegs_kept (maskRegs mask) a
  have hload := loadRegs_mapped (s := s) (runPlace_of_mask (p := fun b => s.mappedAt b 4 = true) hmap)
  refine ⟨(s.loadedRegs (maskRegs mask) a).done, ?_, hcursor, hsr, hmem, fun hplain => ?_⟩
  · show execMovemToRegs src mask s = _
    rw [execMovemToRegs, State.withAddress_mem _ hloc, hauto, hload]
    rfl
  · have hreg (i : Nat) (hi : i < 16) : (s.loadedRegs (maskRegs mask) a).reg (maskReg i) =
        if mask.getLsbD i then s.peek (place i) .l else s.reg (maskReg i) := by
      split
      case isTrue hbit =>
        exact State.loadedRegs_reg (maskRegs_nodup mask)
          (runPlace_of_mask (p := fun b => s.ioAt b 4 = false) hplain) (maskRegs_getElem? hi hbit)
      case isFalse hbit => exact State.loadedRegs_reg_of_notMem s a (mt (maskReg_mem_iff hi).mp hbit)
    intro i hi
    have hd : maskReg i = .d (BitVec.ofNat 3 i) := if_pos hi
    have ha : maskReg (8 + i) = .a (BitVec.ofNat 3 i) := by
      rw [maskReg, if_neg (by omega), Nat.add_sub_cancel_left]
    have hdata := hreg i (by omega)
    have haddress := hreg (8 + i) (by omega)
    rw [hd] at hdata
    rw [ha] at haddress
    exact ⟨hdata, haddress⟩

end Sys2Proof.Machine
end

section
/-! PROOFS. The fetch of an instruction's words (30_encoding.md R146, R149): the words of plain memory at the PC, and the
definition that they select. -/

namespace Sys2Proof.Machine

/-! ### The opcode word -/

/-- A running context with no mark, no interrupt due and an even PC (30 R149). -/
structure State.AtInstruction (s : State) : Prop where
  fault : s.fault = none
  refused : s.refused = none
  running : s.runState = .running
  quiet : s.interruptDue = false
  even : s.pc.getLsbD 0 = false

/-- The state with a number of words fetched: the request of the step is used up and the after-exception mark cleared. -/
def State.wordsFetched (s : State) (n : Nat) : State :=
  { s with
    ipl := s.ipl.tail
    iplPrev := s.level
    cursor := s.pc + BitVec.ofNat 32 (2 * n)
    afterException := false }

/-- An exception is not traced (60 R442). -/
theorem traced_enter (t : Bool) (s : State) (vec : BitVec 8) (pc : Long) (level : Option (BitVec 3)) :
    traced t (s.enter vec pc level) = s.enter vec pc level := by
  cases h : s.enter vec pc level with
  | next u => simp [traced, State.enter_afterException h]
  | _ => rfl

/-- With a plain opcode word the step matches it and traces what comes of it. -/
theorem step_eq_runWord {s : State} (h : s.AtInstruction) {w : Word} (hplain : s.plainAt s.pc 2 = true)
    (hw : (s.peek s.pc .w).setWidth 16 = w) :
    step s = traced s.tracing ((s.wordsFetched 1).runWord exec w) := by
  obtain ⟨hmap, hio⟩ := (s.plainAt_iff s.pc 2).mp hplain
  have hload : ({ s.tick with cursor := s.pc } : State).load .fetch s.pc .w =
      .ok (s.peek s.pc .w, { s.tick with cursor := s.pc }) :=
    (State.load_mapped (s := { s.tick with cursor := s.pc }) (sz := .w) .fetch hmap).trans
      (congrArg _ (State.access_plain (s := { s.tick with cursor := s.pc }) (sz := .w) .fetch hio))
  rw [step_eq_runInstr h.fault h.refused h.running h.quiet h.even, ← hw]
  show withValue (({ s.tick with cursor := s.pc } : State).load .fetch s.pc .w) _ = _
  rw [hload]
  rfl

/-! ### The extension words -/

/-- From the word with a number on, the words at the PC are plain and mapped and have these values. -/
def State.WordsFrom (s : State) (n : Nat) (ws : List Word) : Prop :=
  ∀ (k : Nat) (h : k < ws.length), s.plainAt (s.pc + BitVec.ofNat 32 (2 * (n + k))) 2 = true ∧
    (s.peek (s.pc + BitVec.ofNat 32 (2 * (n + k))) .w).setWidth 16 = ws[k]

theorem State.WordsFrom.of_cons {s : State} {n : Nat} {w : Word} {ws : List Word} (h : s.WordsFrom n (w :: ws)) :
    (s.plainAt (s.pc + BitVec.ofNat 32 (2 * n)) 2 = true ∧
      (s.peek (s.pc + BitVec.ofNat 32 (2 * n)) .w).setWidth 16 = w) ∧ s.WordsFrom (n + 1) ws := by
  refine ⟨h 0 (Nat.zero_lt_succ _), fun k hk => ?_⟩
  rw [Nat.add_right_comm]
  exact h (k + 1) (Nat.succ_lt_succ hk)

theorem State.WordsFrom.of_append {s : State} {us ws : List Word} {n : Nat} (h : s.WordsFrom n (us ++ ws)) :
    s.WordsFrom n us ∧ s.WordsFrom (n + us.length) ws := by
  refine ⟨fun k hk => ?_, fun k hk => ?_⟩
  · have hword := h k (by rw [List.length_append]; omega)
    rwa [List.getElem_append_left hk] at hword
  · have hword := h (us.length + k) (by rw [List.length_append]; omega)
    rw [List.getElem_append_right (Nat.le_add_right ..)] at hword
    simpa [Nat.add_assoc] using hword

/-- Plain words are fetched as they stand, and the cursor goes past them. -/
theorem fetchWords_wordsFrom {s : State} {ws : List Word} {n : Nat} (h : s.WordsFrom n ws) :
    fetchWords ws.length (s.wordsFetched n) = .ok (ws, s.wordsFetched (n + ws.length)) := by
  induction ws generalizing n with
  | nil => rfl
  | cons w ws ih =>
    obtain ⟨⟨hplain, hw⟩, hrest⟩ := h.of_cons
    obtain ⟨hmap, hio⟩ := (s.plainAt_iff _ _).mp hplain
    have hload : (s.wordsFetched n).load .fetch (s.wordsFetched n).cursor .w =
        .ok (s.peek (s.pc + BitVec.ofNat 32 (2 * n)) .w, s.wordsFetched n) :=
      (State.load_mapped (s := s.wordsFetched n) (sz := .w) .fetch hmap).trans
        (congrArg _ (State.access_plain (s := s.wordsFetched n) (sz := .w) .fetch hio))
    have hnext : { s.wordsFetched n with cursor := (s.wordsFetched n).cursor + 2 } = s.wordsFetched (n + 1) := by
      have hcursor : s.pc + BitVec.ofNat 32 (2 * n) + 2 = s.pc + BitVec.ofNat 32 (2 * (n + 1)) := by bv_omega
      simp only [State.wordsFetched, hcursor]
    rw [List.length_cons, fetchWords, hload]
    simp only [hnext, ih hrest, hw]
    rw [Nat.add_right_comm]
    rfl

/-! ### From the selected definition on -/

theorem extWords_of_group {isa : Isa} {w : Word} {ops : List Op} {op : Op} (h : lookup isa w = .group ops)
    (hop : op ∈ ops) : op.row.form.extWords = 1 := by
  obtain ⟨-, hext⟩ := candidates_of_group h
  obtain ⟨x, hx⟩ := Option.isSome_iff_exists.mp (hext op hop)
  exact Form.extWords_of_extSel (op.ext_eq.1.symm.trans hx)

theorem mem_of_selectRow {ops : List Op} {e : Word} {op : Op} (h : selectRow ops e = some op) : op ∈ ops := by
  rw [selectRow_eq_find] at h
  exact List.mem_of_find?_eq_some h

/-- A definition that the words select, and that the mode may run, goes on to its EA extension words. -/
theorem State.runWord_eq_runOp {s : State} {w : Word} {op : Op} {is es : List Word}
    (hselect : selectOp s.cfg.isa w (is ++ es) = .ok op) (hrun : s.mayRun op = true)
    (hlen : is.length = op.row.form.extWords) (h : s.WordsFrom 1 is) (run : Instr → State → Result) :
    (s.wordsFetched 1).runWord run w = (s.wordsFetched (1 + is.length)).runOp run op w is := by
  have hfetch := fetchWords_wordsFrom h
  have hisa : (s.wordsFetched 1).cfg.isa = s.cfg.isa := rfl
  have hmay : (s.wordsFetched 1).mayRun op = true := hrun
  unfold selectOp at hselect
  rw [State.runWord, hisa]
  cases hl : lookup s.cfg.isa w with
  | unmatched | ambiguous => simp [hl] at hselect
  | found op' =>
    obtain rfl : op' = op := by simpa [hl] using hselect
    simp only [hmay, if_true, ← hlen, hfetch]
    rfl
  | group ops =>
    have hselected {e : Word} {r : List Word} (hr : is ++ es = e :: r) : selectRow ops e = some op := by
      simp only [hl, hr] at hselect
      split at hselect
      · cases hselect
      next hrow => rw [hrow, Except.ok.inj hselect]
    obtain ⟨e, r, hr⟩ : ∃ e r, is ++ es = e :: r := by
      cases hr : is ++ es with
      | nil => simp [hl, hr] at hselect
      | cons e r => exact ⟨e, r, rfl⟩
    have hrow := hselected hr
    have hone : is.length = 1 := hlen.trans (extWords_of_group hl (mem_of_selectRow hrow))
    obtain ⟨i, rfl⟩ := List.length_eq_one_iff.mp hone
    obtain rfl : i = e := (List.cons.inj hr).1
    rw [List.length_singleton] at hfetch
    simp only [hfetch, withValue, List.headD_cons, hrow, List.length_singleton]

theorem State.runOp_ok {s : State} {w : Word} {op : Op} {is es : List Word} {n : Nat} {i : Instr}
    (hlen : es.length = op.row.eaWords w) (h : s.WordsFrom n es) (hread : op.read w is es = .ok i)
    (run : Instr → State → Result) : (s.wordsFetched n).runOp run op w is = run i (s.wordsFetched (n + es.length)) := by
  rw [State.runOp, ← hlen, fetchWords_wordsFrom h]
  simp only [withValue, hread]

theorem State.runOp_error {s : State} {w : Word} {op : Op} {is es : List Word} {n : Nat} {r : Reject}
    (hlen : es.length = op.row.eaWords w) (h : s.WordsFrom n es) (hread : op.read w is es = .error r)
    (run : Instr → State → Result) :
    (s.wordsFetched n).runOp run op w is = (s.wordsFetched (n + es.length)).reject r := by
  rw [State.runOp, ← hlen, fetchWords_wordsFrom h]
  simp only [withValue, hread]

/-! ### A legal instruction runs (30 R149) -/

/-- Settles O21: the encoded words select the row of the instruction and are read back as it. -/
theorem stepRunsDecodedInstruction : Obligations.StepRunsDecodedInstruction := by
  intro s i hfault hrefused hrunning hquiet heven hwf hmay hwords
  obtain ⟨hvis, hlegal⟩ := Bool.and_eq_true_iff.mp hwf
  have hlen := (Args.instrExts_length i.op.row i.args).trans (congrArg Form.extWords i.args_form)
  have hea := (Row.readArgs_ok hlen (Op.readArgs_wordOf i.args_form hlegal)).eaWords
  have hfrom : s.WordsFrom 0 (encode i) := fun k hk => by
    rw [Nat.zero_add]
    exact hwords k hk
  have hcount : (encode i).length = 1 + (i.args.instrExts i.op.row).length + i.args.eaExts.length := by
    rw [encode_eq, List.length_cons, List.length_append]
    omega
  rw [encode_eq] at hfrom
  obtain ⟨⟨hplain, hw⟩, hexts⟩ := hfrom.of_cons
  obtain ⟨hinstr, hext⟩ := hexts.of_append
  rw [Nat.mul_zero, BitVec.add_zero] at hplain hw
  rw [step_eq_runWord ⟨hfault, hrefused, hrunning, hquiet, heven⟩ hplain hw,
    State.runWord_eq_runOp (selectOp_wordOf i.args_form hvis hlegal i.args.eaExts) hmay hlen hinstr,
    State.runOp_ok hea.symm hext (Op.read_wordOf hwf), ← hcount]
  rfl

/-! ### Privileged instructions (60 R436) -/

theorem Op.privileged_iff (op : Op) : op.row.privileged = true ↔
    op ∈ [Op.moveFromSr, .moveToSr, .moveToUsp, .moveFromUsp, .movec, .rte, .stop, .halt, .strldsr, .cpushlDc,
      .cpushlIc, .cpushlBc, .intouch, .wdebug] := by
  cases op <;> decide

/-- In user mode Execute of a privileged instruction enters vector 8, but of HALT under `USER_HALT`. -/
theorem exec_privileged_user {i : Instr} {s : State} (hpriv : i.row.privileged = true) (huser : s.supervisor = false)
    (hhalt : ¬(i.op = .halt ∧ s.cfg.userHalt = true)) : exec i s = s.enter 8 s.pc none := by
  have hraise (r : Result) : s.privileged r = s.enter 8 s.pc none := State.privileged_user huser r
  cases i with
  | halt =>
    have hno : ¬ s.cfg.userHalt = true := fun hyes => hhalt ⟨rfl, hyes⟩
    rw [exec_halt, if_neg hno, hraise]
  | moveFromSr | moveToSr | moveToUsp | moveFromUsp | movec | rte | stop | strldsr | cpushlDc | cpushlIc | cpushlBc
  | intouch | wdebug => exact hraise _
  | _ => exact absurd hpriv Bool.false_ne_true

/-- Settles O23. -/
theorem privilegeViolation : Obligations.PrivilegeViolation := by
  refine ⟨?_, fun i s hpriv huser hhalt => exec_privileged_user hpriv huser hhalt, Op.privileged_iff⟩
  intro s w op hfault hrefused hrunning hquiet heven hplain hw hlookup hpriv huser hhalt
  have hmay : ¬ (s.wordsFetched 1).mayRun op = true := by
    have hsuper : (s.wordsFetched 1).supervisor = false := huser
    have hcfg : (s.wordsFetched 1).cfg = s.cfg := rfl
    simpa [State.mayRun, hpriv, hsuper, hcfg] using hhalt
  have hisa : (s.wordsFetched 1).cfg.isa = s.cfg.isa := rfl
  have hword : (s.wordsFetched 1).runWord exec w = (s.wordsFetched 1).enter 8 s.pc none := by
    rw [State.runWord, hisa, hlookup]
    exact if_neg hmay
  rw [step_eq_runWord ⟨hfault, hrefused, hrunning, hquiet, heven⟩ hplain hw, hword, traced_enter]
  rfl

/-! ### Words of the spec -/

/-- Settles O19: the decoder is run on each word. -/
theorem wordsOfTheSpec : Obligations.WordsOfTheSpec := by
  refine ⟨?_, ?_, ?_, ?_, ?_, ?_, ?_, ?_, ?_⟩
  all_goals decide +kernel

end Sys2Proof.Machine
end

section
/-! PROOFS. Words that are no instruction (30_encoding.md R146, R147, R153; 20 R97; 43 R300, R301): unmatched opcode words,
bad brief words, and reserved words of the MUL.L and DIV.L groups. -/

namespace Sys2Proof

/-! ### Bad brief words (20 R97) -/

/-- W/L is 0, the scale is 8, or the format is the full one. -/
def Brief.IsBad (x : Word) : Prop := x.getLsbD 11 = false ∨ x.extractLsb' 9 2 = 3 ∨ x.getLsbD 8 = true

theorem Brief.ofWord_bad {x : Word} (h : Brief.IsBad x) : Brief.ofWord x = none := by
  unfold Brief.ofWord
  obtain hlong | hscale | hformat := h
  · rw [hlong]
    rfl
  · rw [hscale]
    split <;> rfl
  · rw [hformat, Bool.not_true, Bool.and_false]
    rfl

/-- The EA fields of the two indexed modes. -/
theorem Mode.ofField_indexed : ∀ f : BitVec 6, f.extractLsb' 3 3 = 6 ∨ f = 0x3B →
    Mode.ofField f = some .index ∨ Mode.ofField f = some .pcIndex := by decide

theorem Mode.extWords_of_indexed {f : BitVec 6} {m : Mode} (hf : f.extractLsb' 3 3 = 6 ∨ f = 0x3B)
    (hm : Mode.ofField f = some m) (sz : Size) : m.extWords sz = 1 := by
  obtain h | h := Mode.ofField_indexed f hf <;> cases hm.symm.trans h <;> rfl

theorem Ea.ofField_bad {f : BitVec 6} (hf : f.extractLsb' 3 3 = 6 ∨ f = 0x3B) {x : Word} (hx : Brief.IsBad x) (sz : Size) :
    Ea.ofField f sz [x] = .error .badBrief := by
  unfold Ea.ofField
  obtain h | h := Mode.ofField_indexed f hf <;> simp [h, Brief.ofWord_bad hx]

/-- With the words its mode takes an EA field is read, unless its brief word is bad. -/
theorem Ea.ofField_of_length {f : BitVec 6} {m : Mode} (hm : Mode.ofField f = some m) {sz : Size} {es : List Word}
    (hlen : es.length = m.extWords sz) : (∃ e, Ea.ofField f sz es = .ok e) ∨ Ea.ofField f sz es = .error .badBrief := by
  unfold Ea.ofField
  rw [hm]
  cases m with
  | dn | an | ind | postInc | preDec => exact .inl ⟨_, rfl⟩
  | disp | absW | pcDisp =>
    obtain ⟨x, rfl⟩ := List.length_eq_one_iff.mp hlen
    exact .inl ⟨_, rfl⟩
  | index | pcIndex =>
    obtain ⟨x, rfl⟩ := List.length_eq_one_iff.mp hlen
    cases hb : Brief.ofWord x with
    | none => simp [hb]
    | some b => simp [hb]
  | absL =>
    obtain ⟨x, y, rfl⟩ := List.length_eq_two.mp hlen
    exact .inl ⟨_, rfl⟩
  | imm =>
    cases sz with
    | b | w =>
      obtain ⟨x, rfl⟩ := List.length_eq_one_iff.mp hlen
      exact .inl ⟨_, rfl⟩
    | l =>
      obtain ⟨x, y, rfl⟩ := List.length_eq_two.mp hlen
      exact .inl ⟨_, rfl⟩

/-! ### Operands with a bad brief word -/

/-- A bad brief word of the one EA is that of the operands. -/
theorem Row.readArgs_badEa {r : Row} {w : Word} {is es : List Word} (hea : r.form.hasEa = true) (hmove : r.form ≠ .moveEa)
    (hlen : is.length = r.form.extWords) (h : Ea.ofField (eaField w) r.eaSize es = .error .badBrief) :
    r.readArgs w is es = .error .badBrief := by
  unfold Row.readArgs
  cases hf : r.form
  case moveEa => exact absurd hf hmove
  case eaReg | regEa | quickEa | ea =>
    obtain rfl := List.eq_nil_of_length_eq_zero (hlen.trans (congrArg Form.extWords hf))
    simp only [h]
    rfl
  case maskEa | eaMask | mul | div | rem | bitEa | wordEa =>
    obtain ⟨x, rfl⟩ := List.length_eq_one_iff.mp (hlen.trans (congrArg Form.extWords hf))
    simp only [h]
    rfl
  all_goals exact absurd (hea.symm.trans (congrArg Form.hasEa hf)) Bool.noConfusion

/-- A MOVE's operands with a bad brief word of the source, or of the destination behind a source that is read or bad. -/
theorem Row.readArgs_badMove {r : Row} {w : Word} {es : List Word} {m : Mode} (hform : r.form = .moveEa)
    (hm : Mode.ofField (eaField w) = some m)
    (h : Ea.ofField (eaField w) r.eaSize (es.take (m.extWords r.eaSize)) = .error .badBrief ∨
      (∃ src, Ea.ofField (eaField w) r.eaSize (es.take (m.extWords r.eaSize)) = .ok src) ∧
        Ea.ofField (moveDstField w) r.eaSize (es.drop (m.extWords r.eaSize)) = .error .badBrief) :
    r.readArgs w [] es = .error .badBrief := by
  unfold Row.readArgs
  rw [hform]
  obtain hsrc | ⟨⟨src, hsrc⟩, hdst⟩ := h
  · simp only [hm, Option.map_some, Option.getD_some, hsrc]
  · simp only [hm, Option.map_some, Option.getD_some, hsrc, hdst]

/-- The brief word of the source, or of a MOVE's destination, is bad. -/
def Op.BadBrief (op : Op) (w : Word) (rest : List Word) : Prop :=
  op.row.ea ≠ none ∧ (w.extractLsb' 3 3 = 6 ∨ w.extractLsb' 0 6 = 0x3B) ∧
      Brief.IsBad ((rest.drop op.row.form.extWords).headD 0) ∨
    op.row.dst ≠ none ∧ w.extractLsb' 6 3 = 6 ∧ Brief.IsBad (rest.getLastD 0)

theorem eaField_mode (w : Word) : (eaField w).extractLsb' 3 3 = w.extractLsb' 3 3 := by
  apply BitVec.eq_of_getLsbD_eq
  intro i hi
  simp [eaField, hi]

/-- How many extension words the EAs of a matching word take. -/
theorem Row.eaWords_of_modes {r : Row} {w : Word} {m : Mode} (hea : r.ea.isSome = true)
    (hm : Mode.ofField (eaField w) = some m) :
    (r.dst = none → r.eaWords w = m.extWords r.eaSize) ∧
      ∀ dset d, r.dst = some dset → Mode.ofField (moveDstField w) = some d →
        r.eaWords w = m.extWords r.eaSize + d.extWords r.eaSize := by
  obtain ⟨set, hset⟩ := Option.isSome_iff_exists.mp hea
  unfold Row.eaWords
  rw [hset, hm]
  refine ⟨fun hdst => ?_, fun dset d hdst hd => ?_⟩
  · simp [hdst]
  · simp [hdst, hd]

/-- A definition whose words hold a bad brief word is not read. -/
theorem Op.read_bad {op : Op} {isa : Isa} {w : Word} {is es : List Word} (hhits : op.row.hits isa w = true)
    (his : is.length = op.row.form.extWords) (hes : es.length = op.row.eaWords w) (hbad : op.BadBrief w (is ++ es)) :
    op.read w is es = .error .badBrief := by
  suffices h : op.row.readArgs w is es = .error .badBrief by simp only [Op.read, h]
  obtain ⟨hhasEa, hdst⟩ := op.ea_isSome
  obtain ⟨-, -, -, hmodes⟩ := (Row.hits_iff ..).mp hhits
  have hdropped : (is ++ es).drop op.row.form.extWords = es := by rw [← his, List.drop_left]
  have hsome : op.row.ea.isSome = true := by
    obtain ⟨hea, -⟩ | ⟨hd, -⟩ := hbad
    · exact Option.isSome_iff_ne_none.mpr hea
    · by_cases hform : op.row.form = .moveEa
      · rw [hhasEa, hform]
        rfl
      · exact absurd (hdst.trans (if_neg hform)) hd
  obtain ⟨set, hset⟩ := Option.isSome_iff_exists.mp hsome
  obtain ⟨m, hm, -, hdmodes⟩ := (Row.modesLegal_iff ..).mp hmodes set hset
  obtain ⟨hone, htwo⟩ := Row.eaWords_of_modes hsome hm
  by_cases hform : op.row.form = .moveEa
  · have hnil : is = [] := List.eq_nil_of_length_eq_zero (his.trans (by rw [hform]; rfl))
    obtain ⟨d, hd, -, -⟩ := hdmodes _ (hdst.trans (if_pos hform))
    have hlen : es.length = m.extWords op.row.eaSize + d.extWords op.row.eaSize :=
      hes.trans (htwo _ d (hdst.trans (if_pos hform)) hd)
    have htake : (es.take (m.extWords op.row.eaSize)).length = m.extWords op.row.eaSize := by
      rw [List.length_take, hlen]
      omega
    subst hnil
    refine Row.readArgs_badMove hform hm ?_
    obtain ⟨-, hmode, hx⟩ | ⟨-, hmode, hx⟩ := hbad
    · have hfield : (eaField w).extractLsb' 3 3 = 6 ∨ eaField w = 0x3B := by rwa [eaField_mode]
      have hwords := Mode.extWords_of_indexed hfield hm op.row.eaSize
      rw [hdropped] at hx
      cases es with
      | nil => rw [hwords, List.length_nil] at hlen; omega
      | cons x es =>
        rw [hwords]
        exact .inl (Ea.ofField_bad hfield hx _)
    · have hfield : (moveDstField w).extractLsb' 3 3 = 6 ∨ moveDstField w = 0x3B := .inl ((moveDstField_mode w).trans hmode)
      have hwords := Mode.extWords_of_indexed hfield hd op.row.eaSize
      obtain ⟨x, hlast⟩ : ∃ x, es.drop (m.extWords op.row.eaSize) = [x] :=
        List.length_eq_one_iff.mp (by rw [List.length_drop, hlen, hwords]; omega)
      have hget : ([] ++ es).getLastD 0 = x := by
        rw [List.nil_append, ← List.take_append_drop (m.extWords op.row.eaSize) es, hlast]
        simp
      rw [hget] at hx
      obtain hsrc | hsrc := Ea.ofField_of_length hm htake
      · exact .inr ⟨hsrc, hlast ▸ Ea.ofField_bad hfield hx _⟩
      · exact .inl hsrc
  · have hnone : op.row.dst = none := hdst.trans (if_neg hform)
    obtain ⟨-, hmode, hx⟩ | ⟨hd, -⟩ := hbad
    · have hfield : (eaField w).extractLsb' 3 3 = 6 ∨ eaField w = 0x3B := by rwa [eaField_mode]
      obtain ⟨x, rfl⟩ := List.length_eq_one_iff.mp
        ((hes.trans (hone hnone)).trans (Mode.extWords_of_indexed hfield hm _))
      rw [hdropped] at hx
      exact Row.readArgs_badEa (hhasEa.symm.trans hsome) hform his (Ea.ofField_bad hfield hx _)
    · exact absurd hnone hd

/-! ### The groups of MUL.L and of DIV.L (30 R146; 43 R300, R301) -/

theorem Op.ext_isSome_iff (op : Op) :
    op.row.ext.isSome = true ↔ op ∈ [Op.muluL, .mulsL] ∨ op ∈ [Op.divuL, .divsL, .remuL, .remsL] := by
  cases op <;> decide

/-- The rows of a group match the same opcode words. -/
theorem Op.group_hits (isa : Isa) (w : Word) :
    (∀ op ∈ [Op.muluL, .mulsL], op.row.hits isa w = Op.muluL.row.hits isa w) ∧
      ∀ op ∈ [Op.divuL, .divsL, .remuL, .remsL], op.row.hits isa w = Op.divuL.row.hits isa w := by
  constructor
  all_goals
    intro op hop
    simp only [List.mem_cons, List.not_mem_nil, or_false] at hop
  · obtain rfl | rfl := hop <;> rfl
  · obtain rfl | rfl | rfl | rfl := hop <;> rfl

theorem mem_candidates_of_hits {isa : Isa} {w : Word} {op : Op} (h : op.row.hits isa w = true) : op ∈ candidates isa w := by
  obtain ⟨hpat, -⟩ := (Row.hits_iff ..).mp h
  obtain ⟨-, hline⟩ := op.mem_lineOps
  rw [← Op.line_of_pat hpat] at hline
  exact Machine.mem_candidates_iff.mpr ⟨hline, h⟩

/-- A group is that of MUL.L or that of DIV.L, which the opcode word tells. -/
theorem mem_group_iff {isa : Isa} {w : Word} {ops : List Op} (h : lookup isa w = .group ops) (op : Op) :
    op ∈ ops ↔ op ∈ if w &&& 0xFFC0 = 0x4C00 then [Op.muluL, .mulsL] else [Op.divuL, .divsL, .remuL, .remsL] := by
  obtain ⟨hmul, hdiv⟩ := Op.group_hits isa w
  have hpat {q : Op} (hq : q ∈ ops) :
      (q ∈ [Op.muluL, .mulsL] ∧ w &&& 0xFFC0 = 0x4C00 ∧ Op.muluL.row.hits isa w = true) ∨
        (q ∈ [Op.divuL, .divsL, .remuL, .remsL] ∧ w &&& 0xFFC0 = 0x4C40 ∧ Op.divuL.row.hits isa w = true) := by
    obtain ⟨rfl, hext⟩ := candidates_of_group h
    obtain ⟨-, hhits⟩ := Machine.mem_candidates_iff.mp hq
    obtain hmem | hmem := (q.ext_isSome_iff).mp (hext q hq)
    · rw [hmul q hmem] at hhits
      exact .inl ⟨hmem, ((Row.hits_iff ..).mp hhits).1, hhits⟩
    · rw [hdiv q hmem] at hhits
      exact .inr ⟨hmem, ((Row.hits_iff ..).mp hhits).1, hhits⟩
  have hne : ∃ q, q ∈ ops := by
    obtain ⟨-, h'⟩ | ⟨_, -, -, h'⟩ | ⟨hne, -, h'⟩ := lookup_cases isa w <;> cases h.symm.trans h'
    exact List.exists_mem_of_ne_nil _ hne
  obtain ⟨rfl, -⟩ := candidates_of_group h
  constructor
  · intro hop
    obtain ⟨hmem, hw, -⟩ | ⟨hmem, hw, -⟩ := hpat hop
    · rwa [if_pos hw]
    · rwa [if_neg (by rw [hw]; decide)]
  · intro hop
    obtain ⟨q, hq⟩ := hne
    obtain ⟨-, hw, hhits⟩ | ⟨-, hw, hhits⟩ := hpat hq
    · rw [if_pos hw] at hop
      exact mem_candidates_of_hits ((hmul op hop).trans hhits)
    · rw [if_neg (by rw [hw]; decide)] at hop
      exact mem_candidates_of_hits ((hdiv op hop).trans hhits)

/-- Without bit 11, which tells signed from unsigned, the fixed bits are 0. -/
theorem and_sign_iff (e : Word) {m : Word} (hm : 0x0800 &&& m = 0) :
    e &&& (m ||| 0x0800) = 0 ∨ e &&& (m ||| 0x0800) = 0x0800 ↔ e &&& m = 0 := by
  have hsign : e &&& 0x0800 = 0 ∨ e &&& 0x0800 = 0x0800 := by
    have h := BitVec.and_twoPow e 11
    split at h
    · exact .inr h
    · exact .inl h
  have hpart : e &&& m = e &&& (m ||| 0x0800) &&& m := by
    rw [BitVec.and_assoc, BitVec.and_or_distrib_right, BitVec.and_self, hm]
    simp
  constructor
  · rintro (h | h)
    · rw [hpart, h]
      exact BitVec.zero_and
    · rw [hpart, h, hm]
  · intro h
    rw [BitVec.and_or_distrib_left, h]
    simpa using hsign

theorem selectRow_ne_none_iff (ops : List Op) (e : Word) : selectRow ops e ≠ none ↔ ∃ op ∈ ops, op.fitsExt e = true := by
  rw [selectRow_eq_find, ← Option.isSome_iff_ne_none, List.find?_isSome]

/-- A group picks a row exactly for the extension words with no reserved bit. -/
theorem selectRow_group {isa : Isa} {w : Word} {ops : List Op} (h : lookup isa w = .group ops) (e : Word) :
    selectRow ops e ≠ none ↔ e &&& (if w &&& 0xFFC0 = 0x4C00 then 0x87FF else 0x87F8) = 0 := by
  simp only [selectRow_ne_none_iff, mem_group_iff h]
  split
  · rw [← and_sign_iff e (m := 0x87FF) (by decide)]
    simp [Op.fitsExt, Op.row, ExtSel.fits]
  · rw [← and_sign_iff e (m := 0x87F8) (by decide)]
    by_cases hreg : e.reg 12 = e.reg 0
    · simp [Op.fitsExt, Op.row, ExtSel.fits, hreg]
    · simp [Op.fitsExt, Op.row, ExtSel.fits, hreg]

end Sys2Proof

namespace Sys2Proof.Machine

/-! ### The step on such words -/

theorem tierALongBranch_iff (isa : Isa) (w : Word) :
    tierALongBranch isa w = true ↔ isa.tier = .a ∧ w &&& 0xF0FF = 0x60FF := by
  simp [tierALongBranch]

/-- An unmatched opcode word is refused if it is a tier-A long branch, and else raises the exception of its line. -/
theorem State.runWord_unmatched {s : State} {w : Word} (h : lookup s.cfg.isa w = .unmatched)
    (run : Instr → State → Result) :
    s.runWord run w =
      if s.cfg.isa.tier = .a ∧ w &&& 0xF0FF = 0x60FF then .refused (.stop (.unknownBehaviour w) s)
      else if w.extractLsb' 12 4 = 0xA then s.enter 10 s.pc none
      else if w.extractLsb' 12 4 = 0xF then s.enter 11 s.pc none
      else s.enter 4 s.pc none := by
  rw [State.runWord, h]
  by_cases hlong : s.cfg.isa.tier = .a ∧ w &&& 0xF0FF = 0x60FF
  · simp only [(tierALongBranch_iff _ _).mpr hlong, hlong, and_self, if_true]
    rfl
  · have hbranch : ¬ tierALongBranch s.cfg.isa w = true := mt (tierALongBranch_iff _ _).mp hlong
    simp only [if_neg hbranch, if_neg hlong, State.reject, unmatchedKind]
    split
    · rfl
    · split <;> rfl

/-- Where no word of the instruction is read on, disassembly has the word and its length. -/
theorem State.disassemble_unmatched {s : State} {a : Long} {w : Word} (hplain : s.plainAt a 2 = true)
    (hw : (s.peek a .w).setWidth 16 = w) (h : lookup s.cfg.isa w = .unmatched) : s.disassemble a = .unrecognized w := by
  obtain ⟨hmap, hio⟩ := (s.plainAt_iff a 2).mp hplain
  have hword : s.wordAt (a + BitVec.ofNat 32 (2 * ([] : List Word).length)) = .ok w := by
    have hzero : a + BitVec.ofNat 32 (2 * ([] : List Word).length) = a := BitVec.add_zero a
    rw [hzero]
    simp [State.wordAt, hmap, hio, hw]
  have hdecode : decodeWords s.cfg.isa [w] = .error (.unknownBehaviour w) ∨
      decodeWords s.cfg.isa [w] = .error (.unmatched w) := by
    simp only [decodeWords, selectOp, h]
    split
    · exact .inl rfl
    · exact .inr rfl
  rw [State.disassemble, State.disassembleFrom, hword]
  obtain hr | hr := hdecode <;> simp only [List.nil_append, disassembleWords, hr, List.headD_cons]

/-- Settles O22. -/
theorem unmatchedWord : Obligations.UnmatchedWord := by
  intro s w hfault hrefused hrunning hquiet heven hplain hw fetched
  have hstep := step_eq_runWord ⟨hfault, hrefused, hrunning, hquiet, heven⟩ hplain hw
  refine ⟨fun hlookup => ⟨?_, ?_⟩, ?_, fun ops e hlookup hplain' he => ?_⟩
  · have hlookup' : lookup (s.wordsFetched 1).cfg.isa w = .unmatched := hlookup
    rw [hstep, State.runWord_unmatched hlookup' exec]
    show traced _ (if s.cfg.isa.tier = .a ∧ w &&& 0xF0FF = 0x60FF then _ else _) = _
    split
    · rfl
    · split
      · exact traced_enter ..
      · split <;> exact traced_enter ..
  · have hunrecognized := State.disassemble_unmatched hplain hw hlookup
    exact ⟨hunrecognized, by rw [hunrecognized]; rfl⟩
  · intro rest op hselect hmay hlen hwords bad hbad
    obtain ⟨hmem, -⟩ := selectOp_ok hselect
    obtain ⟨-, hhits⟩ := mem_candidates_iff.mp hmem
    obtain ⟨is, es, rfl, his⟩ : ∃ is es, rest = is ++ es ∧ is.length = op.row.form.extWords :=
      ⟨rest.take op.row.form.extWords, rest.drop op.row.form.extWords, (List.take_append_drop ..).symm,
        List.length_take_of_le (by omega)⟩
    have hes : es.length = op.row.eaWords w := by
      rw [List.length_append] at hlen
      omega
    have hfrom : s.WordsFrom 1 (is ++ es) := fun k hk => by
      rw [Nat.add_comm]
      exact hwords k hk
    obtain ⟨hfirst, hrest⟩ := hfrom.of_append
    have hcount : 1 + is.length + es.length = 1 + (is ++ es).length := by rw [List.length_append, Nat.add_assoc]
    rw [hstep, State.runWord_eq_runOp hselect hmay his hfirst,
      State.runOp_error hes hrest (Op.read_bad hhits his hes hbad), hcount]
    exact traced_enter ..
  · have hpicks := selectRow_group hlookup e
    by_cases hnone : selectRow ops e = none
    · rw [if_neg (mt hpicks.mpr (not_not.mpr hnone))]
      have hfrom : s.WordsFrom 1 [e] := fun k hk => by
        obtain rfl : k = 0 := Nat.lt_one_iff.mp hk
        exact ⟨hplain', he⟩
      have hfetch := fetchWords_wordsFrom hfrom
      have hlookup' : lookup (s.wordsFetched 1).cfg.isa w = .group ops := hlookup
      rw [List.length_singleton] at hfetch
      rw [hstep, State.runWord, hlookup']
      simp only [hfetch, withValue, List.headD_cons, hnone]
      rfl
    · rw [if_pos (hpicks.mp hnone)]
      exact hnone

end Sys2Proof.Machine
end
